-- ==== Sys2Proof/Word.lean ====
section
/-! DEFINITION. The two word types of the engine (spec 00_scope.md R17): an 8-bit byte and a 32-bit
unsigned word.  Byte-order helpers stand in Decode.lean. -/

namespace Sys2Proof

/-- A byte: 8 bits, an unsigned value `0 .. 255` (R17). -/
abbrev Byte := BitVec 8

/-- A 32-bit unsigned value: an address of the target address space or a CRC-32 value (R8, R11, R60). -/
abbrev W32 := BitVec 32

end Sys2Proof
end

