-- ==== Sys2Proof/Config.lean ====
section
/-! DEFINITION. The parameters of 00_scope.md section 3 as one record of plain data (`Cfg`), the spec's
example configuration `TESTCFG` (95_test_vectors.md Part 2), and the free values: constants without a
body, of which no proof can learn anything but their type. -/

namespace Sys2Proof

/-- What a driver call answers (R43 to R50): `ok` or `fail`. -/
inductive Ans where
  | ok
  | fail
deriving DecidableEq, Repr, Inhabited

/-- Which CRC-32 function the CRC collaborator computes (R11, D6: an open parameter).  `crcA` and `crcB`
are the spec's two candidates (93 G1, G2).  `other k` is any function at all: `Config.crcOther k`. -/
inductive CrcVariant where
  | crcA
  | crcB
  | other (k : Nat)
deriving DecidableEq, Repr

/-- The configuration constants of R30 and the environment parameters of R16 that a rule uses.  A step
never changes them (R28, R30).  The constraints the spec puts on them are `Cfg.wf`
(WellFormed.lean). -/
structure Cfg where
  /-- `BUF_CAP` (R7): capacity of the frame buffer, the length byte counted. -/
  bufCap : Nat
  /-- `RAM_BASE` (R8), inclusive. -/
  ramBase : W32
  /-- `RAM_END` (R8), inclusive. -/
  ramEnd : W32
  /-- `FLASH_BASE` (R8), inclusive. -/
  flashBase : W32
  /-- `FLASH_END` (R8), inclusive. -/
  flashEnd : W32
  /-- `MAX_PAGE` (R9): the number of flash pages. -/
  maxPage : Nat
  /-- `VENDOR` (R13). -/
  vendor : Byte
  /-- `MAJOR` (R13). -/
  major : Byte
  /-- `MINOR` (R13). -/
  minor : Byte
  /-- `PATCH` (R13). -/
  patch : Byte
  /-- `CHIP_ID` (R14): the bytes in the order they are sent; `CHIP_ID_LEN` is its length. -/
  chipId : List Byte
  /-- `ROP_ENC0` (R15): the option-byte encoding of level 0.  The spec gives it no width; it is only
  handed on, so it is a number that stands for it. -/
  ropEnc0 : Nat
  /-- `ROP_ENC1` (R15): the option-byte encoding of level 1. -/
  ropEnc1 : Nat
  /-- `CRC32` (R11). -/
  crc : CrcVariant
  /-- `PAGE_SIZE` (R16): bytes of a flash page; only the environment model of an erase reads it (R67). -/
  pageSize : Nat
  /-- `ERASED_BYTE` (R16): what an erased byte reads as (R67). -/
  erasedByte : Byte
  /-- `APP_BASE` (R16): where the boot-time launcher reads (R297); the engine never reads it. -/
  appBase : W32
deriving DecidableEq, Repr

namespace Config

/-- `TESTCFG` (95_test_vectors.md Part 2), the spec's own example configuration, with the CRC function
left open.  DESIGN CHOICE, unsafe (log entry 1): the spec fixes none of these values, and `ropEnc0`,
`ropEnc1`, `appBase` are not even in `TESTCFG` as numbers. -/
def testCfg : Cfg :=
  { bufCap := 200
    ramBase := 0x20000000, ramEnd := 0x20004FFF
    flashBase := 0x08000000, flashEnd := 0x0800FFFF
    maxPage := 64
    vendor := 0x64, major := 0x01, minor := 0x02, patch := 0x03
    chipId := [0x10, 0x04]
    ropEnc0 := 0, ropEnc1 := 1
    crc := .other 0
    pageSize := 1024, erasedByte := 0xFF
    appBase := 0x08008000 }

/-- FREE VALUE: the checksum function of a collaborator that is neither candidate (R11; log entry 2). -/
opaque crcOther : Nat → List Byte → W32

/-- FREE VALUE: what the CRC collaborator's accumulator holds after the checksum of the given bytes
(R32, not observable; log entry 3). -/
opaque crcResidue : List Byte → W32

/-- FREE VALUE: the answer of the driver call with the given number, where the scripted answers of the
state are used up (R53, U10; log entry 4). -/
opaque freeAnswer : Nat → Ans

/-- FREE VALUE: the lock bit after the driver call with the given number answered `fail` (R33, U9; log
entry 5). -/
opaque freeLock : Nat → Bool

/-- FREE VALUE: the byte at an address after the driver call with the given number failed to program or
erase it (R66, R67, U9; log entry 6). -/
opaque freeByte : Nat → Nat → Byte

/-- FREE VALUE: whether `ROP` has taken the requested level after the option-byte call with the given
number answered `fail` (R68, U9; log entry 7). -/
opaque freeRop : Nat → Bool

end Config

end Sys2Proof
end

