-- ==== Sys2Proof/Machine/Crc.lean ====
section
/-! DEFINITION. The CRC collaborator's function (R11, R42): the spec's candidates CRC-A and CRC-B
(93_implementation_defined.md G1, G2; PRESUMED, unsafe, log entry 31) and the open function. -/

namespace Sys2Proof.Machine

/-- Apply a function a number of times. -/
def repeatBit (f : W32 → W32) : Nat → W32 → W32
  | 0, c => c
  | k + 1, c => repeatBit f k (f c)

/-- One bit of CRC-A (G1): shift right, and the reflected polynomial where bit 0 was set. -/
def crcABit (c : W32) : W32 :=
  if c.getLsbD 0 then (c >>> 1) ^^^ 0xEDB88320#32 else c >>> 1

/-- One byte of CRC-A (G1). -/
def crcAByte (c : W32) (b : Byte) : W32 := repeatBit crcABit 8 (c ^^^ b.setWidth 32)

/-- CRC-A (G1): CRC-32/ISO-HDLC. -/
def crcA (s : List Byte) : W32 := (s.foldl crcAByte 0xFFFFFFFF#32) ^^^ 0xFFFFFFFF#32

/-- One bit of CRC-B (G2): shift left, and the polynomial where bit 31 was set. -/
def crcBBit (c : W32) : W32 :=
  if c.getLsbD 31 then (c <<< 1) ^^^ 0x04C11DB7#32 else c <<< 1

/-- One byte of CRC-B (G2), fed as a 32-bit word. -/
def crcBByte (c : W32) (b : Byte) : W32 := repeatBit crcBBit 32 (c ^^^ b.setWidth 32)

/-- CRC-B (G2). -/
def crcB (s : List Byte) : W32 := s.foldl crcBByte 0xFFFFFFFF#32

/-- `CRC32` (R11): the function of the configuration, of the byte sequence alone. -/
def crc32 : CrcVariant → List Byte → W32
  | .crcA => crcA
  | .crcB => crcB
  | .other k => Config.crcOther k

end Sys2Proof.Machine
end

