-- ==== Sys2Proof/Syntax.lean ====
section
/-! DEFINITION. The instructions: the twelve host commands of the opcode table (R100), one constructor
each, with the operands of R96 to R99.  `extra` is what the frame's payload holds after the last operand
(R102: covered by the CRC and otherwise ignored); a command without operands has its whole payload
there. -/

namespace Sys2Proof

/-- A host command (R100). -/
inductive Instr where
  /-- `GET_VERSION`, code 0x10 (R151). -/
  | getVersion (extra : List Byte)
  /-- `GET_HELP`, code 0x11 (R152). -/
  | getHelp (extra : List Byte)
  /-- `GET_CHIP_ID`, code 0x12 (R153). -/
  | getChipId (extra : List Byte)
  /-- `GET_PROTECTION_STATUS`, code 0x13 (R154). -/
  | getProtectionStatus (extra : List Byte)
  /-- `JUMP_TO_ADDRESS`, code 0x14 (R96, R172). -/
  | jumpToAddress (addr : W32) (extra : List Byte)
  /-- `ERASE_FLASH`, code 0x15 (R98, R191). -/
  | eraseFlash (pidx : Byte) (pcnt : Byte) (extra : List Byte)
  /-- `MEMORY_WRITE`, code 0x16 (R97, R211); the length byte `L` is the length of `wdata`. -/
  | memoryWrite (addr : W32) (wdata : List Byte) (extra : List Byte)
  /-- `ENABLE_RW_PROTECT`, code 0x17 (R251). -/
  | enableRwProtect (extra : List Byte)
  /-- `MEMORY_READ`, code 0x18 (R252). -/
  | memoryRead (extra : List Byte)
  /-- `GET_PAGE_PROTECTION_STATUS`, code 0x19 (R253). -/
  | getPageProtectionStatus (extra : List Byte)
  /-- `READ_OTP`, code 0x20 (R254). -/
  | readOtp (extra : List Byte)
  /-- `DISABLE_RW_PROTECT`, code 0x21: the protection-level change (R99, R230, R231). -/
  | disableRwProtect (lvl : Byte) (extra : List Byte)
deriving DecidableEq, Repr

end Sys2Proof
end

