-- ==== Sys2Proof/WellFormed.lean ====
section
/-! DEFINITION. When a command fits a frame (R7, R90, R91, R97), and when a configuration meets the
spec's constraints (R7, R8, R9, R14, R15). -/

namespace Sys2Proof

/-- Length of the payload a command's frame carries: its operands (R96 to R99) and its extra bytes. -/
def Instr.payloadLen : Instr → Nat
  | .getVersion x => x.length
  | .getHelp x => x.length
  | .getChipId x => x.length
  | .getProtectionStatus x => x.length
  | .jumpToAddress _ x => 4 + x.length
  | .eraseFlash _ _ x => 2 + x.length
  | .memoryWrite _ d x => 5 + d.length + x.length
  | .enableRwProtect x => x.length
  | .memoryRead x => x.length
  | .getPageProtectionStatus x => x.length
  | .readOtp x => x.length
  | .disableRwProtect _ x => 1 + x.length

/-- The length byte `N = P + 5` is 8 bits (R90, R91). -/
def Instr.lengthByteFits (i : Instr) : Bool := decide (i.payloadLen + 5 ≤ 255)

/-- The frame's `N + 1` bytes fit a buffer of `cap` bytes (R7, R122). -/
def Instr.bufferFits (cap : Nat) (i : Instr) : Bool := decide (i.payloadLen + 6 ≤ cap)

/-- A command is well-formed for a frame buffer of `cap` bytes. -/
def Instr.wf (cap : Nat) (i : Instr) : Bool := i.lengthByteFits && i.bufferFits cap

/-- `6 <= BUF_CAP <= 256` (R7). -/
def Cfg.bufCapOk (c : Cfg) : Bool := decide (6 ≤ c.bufCap) && decide (c.bufCap ≤ 256)

/-- `RAM_BASE <= RAM_END` (R8). -/
def Cfg.ramOk (c : Cfg) : Bool := decide (c.ramBase ≤ c.ramEnd)

/-- `FLASH_BASE <= FLASH_END` (R8). -/
def Cfg.flashOk (c : Cfg) : Bool := decide (c.flashBase ≤ c.flashEnd)

/-- The two closed regions are disjoint (R8). -/
def Cfg.disjointOk (c : Cfg) : Bool := decide (c.ramEnd < c.flashBase) || decide (c.flashEnd < c.ramBase)

/-- `1 <= MAX_PAGE <= 255` (R9). -/
def Cfg.maxPageOk (c : Cfg) : Bool := decide (1 ≤ c.maxPage) && decide (c.maxPage ≤ 255)

/-- `1 <= CHIP_ID_LEN <= 255` (R14). -/
def Cfg.chipIdOk (c : Cfg) : Bool := decide (1 ≤ c.chipId.length) && decide (c.chipId.length ≤ 255)

/-- `ROP_ENC0` and `ROP_ENC1` are distinct (R15; 92_eei_decisions.md section 1). -/
def Cfg.encOk (c : Cfg) : Bool := decide (c.ropEnc0 ≠ c.ropEnc1)

/-- A configuration the spec admits.  Property (b) of R11, which is about the function `CRC32`, is not in
here: a statement that needs it names it. -/
def Cfg.wf (c : Cfg) : Bool :=
  c.bufCapOk && c.ramOk && c.flashOk && c.disjointOk && c.maxPageOk && c.chipIdOk && c.encOk

end Sys2Proof
end

