-- ==== Sys2Proof/Decode.lean ====
section
/-! DEFINITION. From frame bytes to a command and back: byte order (R17, R61), the frame format (R90 to
R95), the command code map (R100), operand assembly (R96 to R99), the payload shape (R101), and the
encoder `frame(code, payload)` of R115.  Decoding is total; what is no command is rejected by name. -/

namespace Sys2Proof

/-! ### Byte order -/

/-- `LE32(b0, b1, b2, b3)`: little-endian assembly of four bytes (R17). -/
def le32Of (b0 b1 b2 b3 : Byte) : W32 := b3 ++ b2 ++ b1 ++ b0

/-- `le32(v)`: the four bytes of a word, least significant first (R17). -/
def le32Bytes (v : W32) : List Byte :=
  [v.extractLsb' 0 8, v.extractLsb' 8 8, v.extractLsb' 16 8, v.extractLsb' 24 8]

/-! ### The command code map -/

/-- `CMD_SET` (R10): the twelve codes in the order of R100. -/
def cmdSet : List Byte :=
  [0x10, 0x11, 0x12, 0x13, 0x14, 0x15, 0x16, 0x17, 0x18, 0x19, 0x20, 0x21]

/-- The code byte of a command (R100). -/
def Instr.code : Instr → Byte
  | .getVersion _ => 0x10
  | .getHelp _ => 0x11
  | .getChipId _ => 0x12
  | .getProtectionStatus _ => 0x13
  | .jumpToAddress _ _ => 0x14
  | .eraseFlash _ _ _ => 0x15
  | .memoryWrite _ _ _ => 0x16
  | .enableRwProtect _ => 0x17
  | .memoryRead _ => 0x18
  | .getPageProtectionStatus _ => 0x19
  | .readOtp _ => 0x20
  | .disableRwProtect _ _ => 0x21

/-- `need(code)` (R101), before MEMORY_WRITE's length byte is read. -/
def need (code : Byte) : Nat :=
  if code = 0x14 then 4
  else if code = 0x15 then 2
  else if code = 0x16 then 5
  else if code = 0x21 then 1
  else 0

/-- The payload is long enough for the code (R101): at least `need(code)` bytes and, for MEMORY_WRITE,
at least `5 + L` bytes with `L` the payload's byte 4. -/
def payloadShapeOk (code : Byte) (pl : List Byte) : Bool :=
  decide (need code ≤ pl.length) &&
    (decide (code ≠ 0x16) || decide (5 + (pl.getD 4 0).toNat ≤ pl.length))

/-! ### Frames -/

/-- A complete frame's fields (R90, R125). -/
structure Frame where
  /-- The length byte `N`. -/
  n : Byte
  /-- The code byte. -/
  code : Byte
  /-- The `N - 5` payload bytes. -/
  payload : List Byte
  /-- The CRC field, assembled little-endian. -/
  declaredCrc : W32
deriving DecidableEq, Repr

/-- Why bytes are not a command. -/
inductive Reject where
  /-- There is no length byte. -/
  | noLengthByte
  /-- The length byte is below 5: no room for a code and a CRC (R91, R104). -/
  | shortFrame (n : Byte)
  /-- Fewer than `N` bytes follow the length byte. -/
  | truncated (n : Byte)
  /-- The code is none of the twelve (R103). -/
  | unknownCode (code : Byte)
  /-- The payload is too short for the code (R101). -/
  | payloadTooShort (code : Byte)
deriving DecidableEq, Repr

/-- What decoding answers. -/
inductive Decoded where
  | instr (i : Instr)
  | rejected (why : Reject)
deriving DecidableEq, Repr

/-- `declared_crc`: the last four of the `N` body bytes, least significant first (R94). -/
def declaredCrcOf (body : List Byte) (n : Nat) : W32 :=
  le32Of (body.getD (n - 4) 0) (body.getD (n - 3) 0) (body.getD (n - 2) 0) (body.getD (n - 1) 0)

/-- The fields of the frame the bytes begin with (R90): the first byte is `N` and `N` bytes follow; bytes
beyond the frame are not read (R95, R105). -/
def readFrame : List Byte → Except Reject Frame
  | [] => .error .noLengthByte
  | n :: body =>
    if n.toNat < 5 then .error (.shortFrame n)
    else if body.length < n.toNat then .error (.truncated n)
    else .ok
      { n := n
        code := body.getD 0 0
        payload := (body.drop 1).take (n.toNat - 5)
        declaredCrc := declaredCrcOf body n.toNat }

/-- Operand assembly (R96 to R99) on a frame whose CRC has been checked. -/
def decodeFields (code : Byte) (pl : List Byte) : Decoded :=
  match code.toNat with
  | 0x10 => .instr (.getVersion pl)
  | 0x11 => .instr (.getHelp pl)
  | 0x12 => .instr (.getChipId pl)
  | 0x13 => .instr (.getProtectionStatus pl)
  | 0x14 =>
    match pl with
    | a0 :: a1 :: a2 :: a3 :: extra => .instr (.jumpToAddress (le32Of a0 a1 a2 a3) extra)
    | _ => .rejected (.payloadTooShort code)
  | 0x15 =>
    match pl with
    | pidx :: pcnt :: extra => .instr (.eraseFlash pidx pcnt extra)
    | _ => .rejected (.payloadTooShort code)
  | 0x16 =>
    match pl with
    | a0 :: a1 :: a2 :: a3 :: len :: rest =>
      if rest.length < len.toNat then .rejected (.payloadTooShort code)
      else .instr (.memoryWrite (le32Of a0 a1 a2 a3) (rest.take len.toNat) (rest.drop len.toNat))
    | _ => .rejected (.payloadTooShort code)
  | 0x17 => .instr (.enableRwProtect pl)
  | 0x18 => .instr (.memoryRead pl)
  | 0x19 => .instr (.getPageProtectionStatus pl)
  | 0x20 => .instr (.readOtp pl)
  | 0x21 =>
    match pl with
    | lvl :: extra => .instr (.disableRwProtect lvl extra)
    | _ => .rejected (.payloadTooShort code)
  | _ => .rejected (.unknownCode code)

/-- The command in the frame the bytes begin with, or why there is none.  The CRC field is not compared
here: that is the Integrity Verifier's (R126). -/
def decode (bs : List Byte) : Decoded :=
  match readFrame bs with
  | .error why => .rejected why
  | .ok f => decodeFields f.code f.payload

/-! ### The encoder -/

/-- The payload bytes of a command (R96 to R99, R115). -/
def Instr.payload : Instr → List Byte
  | .getVersion x => x
  | .getHelp x => x
  | .getChipId x => x
  | .getProtectionStatus x => x
  | .jumpToAddress a x => le32Bytes a ++ x
  | .eraseFlash p c x => [p, c] ++ x
  | .memoryWrite a d x => le32Bytes a ++ [BitVec.ofNat 8 d.length] ++ d ++ x
  | .enableRwProtect x => x
  | .memoryRead x => x
  | .getPageProtectionStatus x => x
  | .readOtp x => x
  | .disableRwProtect l x => [l] ++ x

/-- The covered region of a frame: length byte, code, payload (R94, R115). -/
def coveredBytes (code : Byte) (pl : List Byte) : List Byte :=
  [BitVec.ofNat 8 (1 + pl.length + 4), code] ++ pl

/-- `frame(code, payload)` under a checksum function (R115). -/
def frameBytes (crc : List Byte → W32) (code : Byte) (pl : List Byte) : List Byte :=
  coveredBytes code pl ++ le32Bytes (crc (coveredBytes code pl))

/-- The frame of a command under a checksum function. -/
def encode (crc : List Byte → W32) (i : Instr) : List Byte := frameBytes crc i.code i.payload

/-! ### Words as the opcode table numbers them -/

/-- The bytes of a table word, the first at bits 7..0.  The table's bits 7..0 are the code byte (frame
byte 1: its rows match there); the bytes after it are payload bytes (DEDUCED, safe, log entry 16). -/
def tableBytes (nbits w : Nat) : List Byte :=
  (List.range (nbits / 8)).map fun k => BitVec.ofNat 8 (w >>> (8 * k))

/-- A payload made long enough for its code by zeros (operand bytes the table gives no bits are 0). -/
def padPayload (code : Byte) (pl : List Byte) : List Byte :=
  let q := pl ++ List.replicate (need code - pl.length) 0
  if code = 0x16 then q ++ List.replicate (5 + (q.getD 4 0).toNat - q.length) 0 else q

/-- The minimal frame of a table word under a checksum function: its length byte, the code byte and the
payload of the word, and the CRC. -/
def tableFrame (crc : List Byte → W32) (nbits w : Nat) : List Byte :=
  match tableBytes nbits w with
  | [] => []
  | code :: pl => frameBytes crc code (padPayload code pl)

/-- The command the decoder reads from a table word.  The CRC field plays no part in decoding and is
zeros here. -/
def decodeTableWord (nbits w : Nat) : Option Instr :=
  match decode (tableFrame (fun _ => 0) nbits w) with
  | .instr i => some i
  | .rejected _ => none

end Sys2Proof
end

