-- ==== Sys2Proof/Machine/Memory.lean ====
section
/-! DEFINITION. `MEM` (R35, R60): the contents of the target's 32-bit byte address space as a list of
(address, byte) pairs in one canonical form.  An unlisted address has NO VALUE: the spec gives the memory
no contents before the engine's own program and erase calls (R35, R55), and the engine never
reads it (DESIGN CHOICE, safe, log entry 12). -/

namespace Sys2Proof.Machine

/-- The contents of the target address space. -/
abbrev Memory := List Host.Cell

/-- One past the last address of the target address space: addresses are `0 .. 2^32 - 1` (R60). -/
def addressLimit : Nat := 2 ^ 32

/-- The canonical form: addresses strictly rising, all of them inside the address space.  An unlisted
address has no value, so no entry can equal what an unlisted address reads as. -/
abbrev Memory.wf (m : Memory) : Prop :=
  m.Pairwise (fun x y => x.1 < y.1) ∧ ∀ c ∈ m, c.1 < addressLimit

/-- The byte at an address, or `none` where neither a run's program and erase calls nor the state it
began from give one. -/
def Memory.read : Memory → Nat → Option Byte
  | [], _ => none
  | c :: m, a => if c.1 = a then some c.2 else Memory.read m a

/-- Give the `len` addresses from `base` the bytes `f` gives them; every other address keeps its byte. -/
def Memory.fill (m : Memory) (base len : Nat) (f : Nat → Byte) : Memory :=
  m.filter (fun c => decide (c.1 < base)) ++
    ((List.range' base len).map (fun a => (a, f a)) ++
      m.filter (fun c => decide (base + len ≤ c.1)))

/-- Write one byte: the only width there is (R19, R63). -/
def Memory.write (m : Memory) (a : W32) (v : Byte) : Memory := m.fill a.toNat 1 (fun _ => v)

/-- Fill a range, less the addresses past the end of the address space, which do not exist (R60;
log entry 14). -/
def Memory.fillClipped (m : Memory) (base len : Nat) (f : Nat → Byte) : Memory :=
  m.fill base (min len (addressLimit - base)) f

/-- What a reset leaves (R55, R290): the flash region's bytes stay, every other byte is without a value
(DESIGN CHOICE, safe, log entry 13). -/
def Memory.keepRange (m : Memory) (lo hi : Nat) : Memory :=
  m.filter (fun c => decide (lo ≤ c.1) && decide (c.1 ≤ hi))

end Sys2Proof.Machine
end

