-- ==== Sys2Proof/Machine/State.lean ====
section
/-! DEFINITION. The machine's state as plain data: the engine's own state (10_state.md R20 to R30), the
environment state its rules mention (R32 to R35), what the environment will answer (R40, R53), the
sequence of interface events (R53), the reasons a step can stop, and the state after reset (R55). -/

namespace Sys2Proof.Machine

/-- The sequencer phase (R26). -/
inductive Phase where
  /-- A command cycle begins; `rx(1)` is outstanding. -/
  | awaitLen
  /-- The length byte is latched; `rx(N)` is outstanding. -/
  | awaitBody
  /-- The whole frame is in `FB`; its CRC is being compared. -/
  | verify
  /-- The CRC has passed; the code is looked up and the payload shape checked. -/
  | dispatch
  /-- Exactly one handler runs. -/
  | exec
  /-- Control has been transferred; absorbing. -/
  | handedOff
deriving DecidableEq, Repr

/-- The Protection Level (R35). -/
inductive Level where
  | level0
  | level1
  | level2
deriving DecidableEq, Repr

/-- A level the engine may ask the driver for (R15, R232): there is no encoding of level 2 in it. -/
inductive SetLevel where
  | level0
  | level1
deriving DecidableEq, Repr

/-- The Protection Level a request names. -/
def SetLevel.toLevel : SetLevel → Level
  | .level0 => .level0
  | .level1 => .level1

/-- What selects, at reset, between the engine and the boot-time launcher (R291). -/
inductive BootMode where
  | engine
  | launchApp
deriving DecidableEq, Repr

/-- An erase request (R45): all pages, or `count` pages from `first`. -/
inductive EraseReq where
  | mass
  | pages (first count : Nat)
deriving DecidableEq, Repr

/-- What `rx(n)` answers (R40). -/
inductive RxAnswer where
  | timeout
  | bytes (bs : List Byte)
deriving DecidableEq, Repr

/-- One item of what the transport will answer: a byte it will deliver, or a timeout. -/
inductive RxItem where
  | byte (b : Byte)
  | timeout
deriving DecidableEq, Repr

/-- One interface call with its arguments and its answer (R53). -/
inductive Event where
  /-- `rx(n) -> r` (R40). -/
  | rx (n : Nat) (r : RxAnswer)
  /-- `tx(s)` (R41). -/
  | tx (s : List Byte)
  /-- `CRC32(s) -> c` (R42). -/
  | crc (s : List Byte) (c : W32)
  /-- `fl_unlock() -> r` (R43). -/
  | flUnlock (r : Ans)
  /-- `fl_erase(req) -> r` (R45). -/
  | flErase (req : EraseReq) (r : Ans)
  /-- `fl_prog(a, v) -> r` (R46). -/
  | flProg (a : W32) (v : Byte) (r : Ans)
  /-- `fl_lock() -> r` (R44). -/
  | flLock (r : Ans)
  /-- `ob_unlock() -> r` (R47). -/
  | obUnlock (r : Ans)
  /-- `ob_prog(enc) -> r` (R48). -/
  | obProg (enc : Nat) (r : Ans)
  /-- `ob_reload() -> r` (R49). -/
  | obReload (r : Ans)
  /-- `ob_lock() -> r` (R50). -/
  | obLock (r : Ans)
  /-- `rop_read() -> v` (R51). -/
  | ropRead (v : Level)
  /-- `xfer(t)` (R52). -/
  | xfer (t : W32)
deriving DecidableEq, Repr

/-- The machine's state. -/
structure State where
  /-- The configuration constants (R30): no step changes them. -/
  cfg : Cfg
  /-- The sequencer phase (R26). -/
  phase : Phase
  /-- `handed_off` (R27). -/
  handedOff : Bool
  /-- The frame buffer `FB` (R20): `BUF_CAP` bytes.  The length latch `N` is `FB[0]` (R21). -/
  fb : List Byte
  /-- `crc_pass` (R24). -/
  crcPass : Bool
  /-- The write loop index `wi` (R23). -/
  wi : Nat
  /-- Bracket result flag `u`: the unlock (R25). -/
  u : Ans
  /-- Bracket result flag `e`: the erase (R25). -/
  e : Ans
  /-- Bracket result flag `w`: the program loop (R25). -/
  w : Ans
  /-- Bracket result flag `p`: the option-byte program (R25). -/
  p : Ans
  /-- Bracket result flag `r`: the option-byte reload (R25). -/
  r : Ans
  /-- Bracket result flag `l`: the lock (R25). -/
  l : Ans
  /-- The CRC collaborator's accumulator (R32). -/
  crcAcc : W32
  /-- `fl_locked`, held by the driver (R33). -/
  flLocked : Bool
  /-- `ob_locked`, held by the driver (R33). -/
  obLocked : Bool
  /-- `MEM` (R35). -/
  mem : Memory
  /-- `ROP` (R35). -/
  rop : Level
  /-- The model's own: what the transport will still answer (R40, R53; log entry 8).  Its end is a line
  silent for ever (R298). -/
  rxIn : List RxItem
  /-- The model's own: the driver's next answers (R53, U10; log entry 4). -/
  answers : List Ans
  /-- The model's own: driver calls made so far; it numbers the free values (log entry 4). -/
  calls : Nat
  /-- The interface events so far, oldest first (R53). -/
  events : List Event
deriving DecidableEq, Repr

/-- Why the machine stops. -/
inductive Fault where
  /-- Raised by the step (Machine/Pipeline.lean, Machine/Step.lean) in a state no run reaches, where what
  the phase promises of the frame buffer or of `crc_pass` does not hold (R26).  Safe: the spec gives such a
  state no transition, and the invariant of Safety.lean rules it out. -/
  | phaseBroken (p : Phase)
deriving DecidableEq, Repr

/-- Why an instruction has no meaning. -/
inductive Refusal where
  /-- Raised by `exec` for an instruction without a meaning.  Safe: nothing is claimed of it.  No arm of
  this model raises it. -/
  | notModelled (mnemonic : String)
deriving DecidableEq, Repr

/-- The machine right after reset with `boot_mode = Engine` (R55, R291).  Given by the spec: `phase`,
`handedOff`, `crcPass`, `flLocked`, `obLocked`, no transport call made.  DESIGN CHOICE (log entries 1, 3,
9, 10, 11): `cfg`, `fb`, `wi`, the bracket flags, `crcAcc`, `rop`; `rxIn`, `answers` and `calls` are the
model's own. -/
def State.reset : State :=
  { cfg := Config.testCfg
    phase := .awaitLen
    handedOff := false
    fb := List.replicate 200 0
    crcPass := false
    wi := 0
    u := .fail, e := .fail, w := .fail, p := .fail, r := .fail, l := .fail
    crcAcc := 0
    flLocked := true, obLocked := true
    mem := []
    rop := .level0
    rxIn := []
    answers := []
    calls := 0
    events := [] }

end Sys2Proof.Machine
end

