-- ==== Sys2Proof/Machine/Operands.lean ====
section
/-! DEFINITION. The views of the frame buffer: the length latch (R21), the decoded operand views (R22),
the covered region (R94), and the frame the handler's command is fetched from. -/

namespace Sys2Proof.Machine

/-- Read byte `i` of the frame buffer (R19). -/
def State.fbAt (s : State) (i : Nat) : Byte := s.fb.getD i 0

/-- The length latch `N = FB[0]` (R21). -/
def State.lenLatch (s : State) : Nat := (s.fbAt 0).toNat

/-- The payload length `P = N - 5` (R21), meant for `N >= 5`. -/
def State.payloadLen (s : State) : Nat := s.lenLatch - 5

/-- `code = FB[1]` (R22, R92). -/
def State.code (s : State) : Byte := s.fbAt 1

/-- `pl[k] = FB[2 + k]` for `0 <= k < P` (R22, R93), as a list. -/
def State.payload (s : State) : List Byte := (s.fb.drop 2).take s.payloadLen

/-- `FB[0 .. N-4]`: the region the checksum covers (R94). -/
def State.covered (s : State) : List Byte := s.fb.take (s.lenLatch - 3)

/-- `declared_crc = LE32(FB[N-3], FB[N-2], FB[N-1], FB[N])` (R22, R94). -/
def State.declaredCrc (s : State) : W32 :=
  le32Of (s.fbAt (s.lenLatch - 3)) (s.fbAt (s.lenLatch - 2)) (s.fbAt (s.lenLatch - 1)) (s.fbAt s.lenLatch)

/-- `addr = LE32(pl[0], pl[1], pl[2], pl[3])` (R22, R96, R97). -/
def State.addrView (s : State) : W32 := le32Of (s.fbAt 2) (s.fbAt 3) (s.fbAt 4) (s.fbAt 5)

/-- `wlen = pl[4]` (R22, R97). -/
def State.wlenView (s : State) : Byte := s.fbAt 6

/-- `wdata[i] = pl[5 + i]` for `0 <= i < L` (R22, R97), as a list. -/
def State.wdataView (s : State) : List Byte := (s.fb.drop 7).take s.wlenView.toNat

/-- `pidx = pl[0]` (R22, R98). -/
def State.pidxView (s : State) : Byte := s.fbAt 2

/-- `pcnt = pl[1]` (R22, R98). -/
def State.pcntView (s : State) : Byte := s.fbAt 3

/-- `lvl = pl[0]` (R22, R99). -/
def State.lvlView (s : State) : Byte := s.fbAt 2

/-- The whole frame, `FB[0 .. N]` (R90, R125). -/
def State.frame (s : State) : List Byte := s.fb.take (s.lenLatch + 1)

/-- The command in the frame buffer, or why there is none. -/
def State.fetch (s : State) : Decoded := decode s.frame

/-- The transport call a phase is in or is about to make, as the number of bytes asked for (R26, R34).  Right
after reset R26 calls `rx(1)` outstanding and R55 and R293 say that no call is: the view follows R26, and
that none has been made yet shows in the events (DESIGN CHOICE, safe, log entry 36). -/
def State.outstandingRx (s : State) : Option Nat :=
  match s.phase with
  | .awaitLen => some 1
  | .awaitBody => some s.lenLatch
  | .verify => none
  | .dispatch => none
  | .exec => none
  | .handedOff => none

end Sys2Proof.Machine
end

