-- ==== Sys2Proof/Machine/Flags.lean ====
section
/-! DEFINITION. The reply and status constants (R12), the integrity flag (R24, R126) and the status bytes
computed from the bracket result flags (R25, R196, R215, R235). -/

namespace Sys2Proof.Machine

/-- `ACK` (R12). -/
def ackByte : Byte := 0xCD

/-- `NACK` (R12). -/
def nackByte : Byte := 0xAB

/-- `ADDR_VALID` (R12). -/
def addrValid : Byte := 0x01

/-- `ADDR_INVALID` (R12). -/
def addrInvalid : Byte := 0x00

/-- `ERASE_OK` (R12). -/
def eraseOk : Byte := 0x01

/-- `ERASE_FAIL` (R12). -/
def eraseFail : Byte := 0x00

/-- `WRITE_OK` (R12). -/
def writeOk : Byte := 0x01

/-- `WRITE_FAIL` (R12). -/
def writeFail : Byte := 0x00

/-- `WRITE_ADDR_INVALID` (R12). -/
def writeAddrInvalid : Byte := 0x00

/-- `ROP_CHANGE_VALID` (R12). -/
def ropChangeValid : Byte := 0x01

/-- `ROP_CHANGE_INVALID` (R12). -/
def ropChangeInvalid : Byte := 0x00

/-- `ACK(k)` with its payload, `k` being the payload's length (R110, R111). -/
def ackReply (payload : List Byte) : List Byte :=
  [ackByte, BitVec.ofNat 8 payload.length] ++ payload

/-- `[NACK]` (R110). -/
def nackReply : List Byte := [nackByte]

/-- `crc_pass`: the checksum of the covered region equals the declared one (R24, R126). -/
def State.crcMatches (s : State) : Bool :=
  decide (crc32 s.cfg.crc s.covered = s.declaredCrc)

/-- ERASE_FLASH's status after its bracket (R191, R196). -/
def State.eraseStatus (s : State) : Byte :=
  if s.u = .ok ∧ s.e = .ok ∧ s.l = .ok then eraseOk else eraseFail

/-- MEMORY_WRITE's status after its bracket (R211, R215). -/
def State.writeStatus (s : State) : Byte :=
  if s.u = .ok ∧ s.w = .ok ∧ s.l = .ok then writeOk else writeFail

/-- The protection-level change's status after its bracket (R231, R235). -/
def State.ropStatus (s : State) : Byte :=
  if s.u = .ok ∧ s.p = .ok ∧ s.r = .ok ∧ s.l = .ok then ropChangeValid else ropChangeInvalid

/-- The logical level as the byte GET_PROTECTION_STATUS sends (R51, R154). -/
def Level.toByte : Level → Byte
  | .level0 => 0x00
  | .level1 => 0x01
  | .level2 => 0x02

end Sys2Proof.Machine
end

