-- ==== Sys2Proof/Machine/Ops.lean ====
section
/-! DEFINITION. The named operations: the interface calls of R40 to R52 with their effect on the
environment (R33, R66 to R68), the Address Validator (R170), the start of a command cycle (R134), and the
one operation that ends a cycle with an outcome (R260, R270), which is this machine's taking of an
exception.  There is no return from one: an outcome is the end of its cycle (R272). -/

namespace Sys2Proof.Machine

/-! ### Events and answers -/

/-- Record one interface event (R53). -/
def emit (ev : Event) (s : State) : State := { s with events := s.events ++ [ev] }

/-- The answer of the `k`-th driver call from now: the script's, or, past its end, a free value (R53). -/
def State.answerAt (s : State) (k : Nat) : Ans :=
  (s.answers[k]?).getD (Config.freeAnswer (s.calls + k))

/-- A driver call has been answered. -/
def State.afterCall (s : State) : State := { s with answers := s.answers.tail, calls := s.calls + 1 }

/-! ### Transport -/

/-- The next `n` bytes of what the transport will deliver and what is left, if no timeout comes first. -/
def takeBytes : Nat → List RxItem → Option (List Byte × List RxItem)
  | 0, q => some ([], q)
  | n + 1, .byte b :: q =>
    match takeBytes n q with
    | some (bs, q') => some (b :: bs, q')
    | none => none
  | _ + 1, .timeout :: _ => none
  | _ + 1, [] => none

/-- What is left after a timeout: the items behind it.  The bytes before it are not delivered (R40). -/
def afterTimeout : List RxItem → List RxItem
  | [] => []
  | .timeout :: q => q
  | .byte _ :: q => afterTimeout q

/-- What `rx(n)` answers (R40, R298). -/
def State.rxAnswer (n : Nat) (s : State) : RxAnswer :=
  match takeBytes n s.rxIn with
  | some (bs, _) => .bytes bs
  | none => .timeout

/-- `rx(n)`: all `n` bytes or a timeout (R40). -/
def recv (n : Nat) (s : State) : State :=
  emit (.rx n (s.rxAnswer n))
    { s with
      rxIn :=
        match takeBytes n s.rxIn with
        | some (_, q) => q
        | none => afterTimeout s.rxIn }

/-- `tx(s)`, which always completes (R41; DEDUCED, unsafe, log entry 19). -/
def send (bs : List Byte) (s : State) : State := emit (.tx bs) s

/-! ### Frame buffer -/

/-- `FB[at .. at + len(bs) - 1] <- bs`; the buffer keeps its length (R20, R121, R123). -/
def storeFb (pos : Nat) (bs : List Byte) (s : State) : State :=
  { s with fb := (s.fb.take pos ++ bs ++ s.fb.drop (pos + bs.length)).take s.fb.length }

/-- `phase <- X` (R19). -/
def setPhase (ph : Phase) (s : State) : State := { s with phase := ph }

/-! ### CRC collaborator -/

/-- `CRC32(FB[0 .. N-4])` from a reset accumulator, and `crc_pass` (R126, R127).  The accumulator is left
at a free value (R32). -/
def checkCrc (s : State) : State :=
  emit (.crc s.covered (crc32 s.cfg.crc s.covered))
    { s with crcPass := s.crcMatches, crcAcc := Config.crcResidue s.covered }

/-! ### Flash driver -/

/-- `fl_unlock()` (R33, R43); its answer is the flag `u`. -/
def flUnlock (s : State) : State :=
  emit (.flUnlock (s.answerAt 0))
    { s.afterCall with
      u := s.answerAt 0
      flLocked := match s.answerAt 0 with
        | .ok => false
        | .fail => Config.freeLock s.calls }

/-- `fl_lock()` (R33, R44); its answer is the flag `l`. -/
def flLock (s : State) : State :=
  emit (.flLock (s.answerAt 0))
    { s.afterCall with
      l := s.answerAt 0
      flLocked := match s.answerAt 0 with
        | .ok => true
        | .fail => Config.freeLock s.calls }

/-- The request names no page (R191, R197). -/
def EraseReq.isEmpty : EraseReq → Bool
  | .mass => false
  | .pages _ count => decide (count = 0)

/-- The first address of the request's pages (R67; PRESUMED, unsafe, log entry 14: the place of a page is
general knowledge of the spec's, G12). -/
def EraseReq.base (c : Cfg) : EraseReq → Nat
  | .mass => c.flashBase.toNat
  | .pages first _ => c.flashBase.toNat + first * c.pageSize

/-- How many bytes the request's pages have (R67). -/
def EraseReq.size (c : Cfg) : EraseReq → Nat
  | .mass => c.maxPage * c.pageSize
  | .pages _ count => count * c.pageSize

/-- `fl_erase(req)` (R45, R67); its answer is the flag `e`.  On `ok` every byte of the named pages reads
`ERASED_BYTE`; on `fail` each of them is a free value.  The engine's own code has no place in memory, so it
runs on whatever is erased (R303, G13; DESIGN CHOICE, unsafe, log entry 39). -/
def flErase (req : EraseReq) (s : State) : State :=
  emit (.flErase req (s.answerAt 0))
    { s.afterCall with
      e := s.answerAt 0
      mem := s.mem.fillClipped (req.base s.cfg) (req.size s.cfg)
        (match s.answerAt 0 with
          | .ok => fun _ => s.cfg.erasedByte
          | .fail => Config.freeByte s.calls) }

/-- `fl_prog(a, v)` (R46, R66); its answer is the flag `w`.  On `ok` the byte is written; on `fail` it is
a free value.  The engine's own code has no place in memory (R303; DESIGN CHOICE, unsafe, log entry 39). -/
def flProg (a : W32) (v : Byte) (s : State) : State :=
  emit (.flProg a v (s.answerAt 0))
    { s.afterCall with
      w := s.answerAt 0
      mem := s.mem.write a
        (match s.answerAt 0 with
          | .ok => v
          | .fail => Config.freeByte s.calls a.toNat) }

/-! ### Option-byte driver -/

/-- `ROP_ENCk` (R15, R232). -/
def ropEnc (c : Cfg) : SetLevel → Nat
  | .level0 => c.ropEnc0
  | .level1 => c.ropEnc1

/-- `ROP` after an option-byte step that failed: its old value or the requested one (R68). -/
def freeLevel (call : Nat) (old : Level) (k : SetLevel) : Level :=
  if Config.freeRop call then k.toLevel else old

/-- `ob_unlock()` (R33, R47); its answer is the flag `u`. -/
def obUnlock (s : State) : State :=
  emit (.obUnlock (s.answerAt 0))
    { s.afterCall with
      u := s.answerAt 0
      obLocked := match s.answerAt 0 with
        | .ok => false
        | .fail => Config.freeLock s.calls }

/-- `ob_lock()` (R33, R50); its answer is the flag `l`. -/
def obLock (s : State) : State :=
  emit (.obLock (s.answerAt 0))
    { s.afterCall with
      l := s.answerAt 0
      obLocked := match s.answerAt 0 with
        | .ok => true
        | .fail => Config.freeLock s.calls }

/-- `ob_prog(ROP_ENCk)` (R48, R68); its answer is the flag `p`.  The level takes effect at the reload.
Memory is untouched (DESIGN CHOICE, unsafe, log entry 37). -/
def obProg (k : SetLevel) (s : State) : State :=
  emit (.obProg (ropEnc s.cfg k) (s.answerAt 0))
    { s.afterCall with
      p := s.answerAt 0
      rop := match s.answerAt 0 with
        | .ok => s.rop
        | .fail => freeLevel s.calls s.rop k }

/-- `ob_reload()` after `ob_prog(ROP_ENCk)` answered `ok` (R49, R68); its answer is the flag `r`.
It never resets the device (DESIGN CHOICE, unsafe, log entry 20), and memory is untouched, also when the
level falls, which R236 leaves to the device (DESIGN CHOICE, unsafe, log entry 37). -/
def obReload (k : SetLevel) (s : State) : State :=
  emit (.obReload (s.answerAt 0))
    { s.afterCall with
      r := s.answerAt 0
      rop := match s.answerAt 0 with
        | .ok => k.toLevel
        | .fail => freeLevel s.calls s.rop k }

/-- `rop_read()` (R51): it reads `ROP` and changes nothing. -/
def ropRead (s : State) : State := emit (.ropRead s.rop) s

/-! ### Platform -/

/-- `xfer(target)` (R27, R52, R173): control is gone and the engine is in `HANDED_OFF`. -/
def xfer (target : W32) (s : State) : State :=
  emit (.xfer target) { s with phase := .handedOff, handedOff := true }

/-- `is_valid(a)`, the Address Validator (R170). -/
def isValid (c : Cfg) (a : W32) : Bool :=
  (decide (c.ramBase ≤ a) && decide (a ≤ c.ramEnd)) ||
    (decide (c.flashBase ≤ a) && decide (a ≤ c.flashEnd))

/-! ### Command cycles and their outcomes -/

/-- How a command cycle ends (R260). -/
inductive CycleOutcome where
  | timeout
  | oversize (n : Nat)
  | shortFrame (n : Nat)
  | integrityFailure
  | unsupportedCommand (code : Byte)
  | malformedPayload (code : Byte)
  | replied
  | handedOff
deriving DecidableEq, Repr

/-- What the engine transmits when it raises an outcome (R112, R260): one NACK or nothing.  A handler's
reply has been sent before `replied` and `handedOff`. -/
def CycleOutcome.reply : CycleOutcome → Option (List Byte)
  | .timeout => none
  | .oversize _ => some nackReply
  | .shortFrame _ => some nackReply
  | .integrityFailure => some nackReply
  | .unsupportedCommand _ => none
  | .malformedPayload _ => some nackReply
  | .replied => none
  | .handedOff => none

/-- The start of a cycle: `phase <- AWAIT_LEN ; crc_pass <- 0 ; FB[0 .. BUF_CAP-1] <- 0x00` (R120,
R134). -/
def beginCycle (s : State) : State :=
  { s with phase := .awaitLen, crcPass := false, fb := List.replicate s.cfg.bufCap 0 }

/-- Send a reply, if there is one. -/
def sendOpt : Option (List Byte) → State → State
  | none, s => s
  | some bs, s => send bs s

/-- End the cycle with an outcome (R270): transmit what it sends and start the next cycle.  After
`handedOff` there is no next cycle (R174). -/
def raise (o : CycleOutcome) (s : State) : State :=
  match o with
  | .handedOff => s
  | o => beginCycle (sendOpt o.reply s)

end Sys2Proof.Machine
end

