-- ==== Sys2Proof/Machine/Erase.lean ====
section
/-! DEFINITION. ERASE_FLASH and the erase sequencer (43_flash_erase.md R190 to R197). -/

namespace Sys2Proof.Machine

/-- `MASS_ERASE` (R9, R190). -/
abbrev massErase : Byte := 0xFF

/-- The request passes the count check (R192) and the index check (R193). -/
def eraseAllowed (c : Cfg) (pidx pcnt : Byte) : Bool :=
  decide (pcnt.toNat ≤ c.maxPage) && (decide (pidx = massErase) || decide (pidx.toNat < c.maxPage))

/-- The request the sequencer makes: all pages (R195), or the clamped range (R194). -/
def eraseRequest (c : Cfg) (pidx pcnt : Byte) : EraseReq :=
  if pidx = massErase then .mass
  else .pages pidx.toNat (min pcnt.toNat (c.maxPage - pidx.toNat))

/-- `e <- (if u = ok then ok else fail)` where no erase call is made (R191). -/
def skipErase (s : State) : State := { s with e := s.u }

/-- The erase step of the bracket (R191, R196, R197): the call is made when the unlock answered `ok` and
the range is not empty; without a call the flag `e` follows `u`. -/
def eraseStep (req : EraseReq) (s : State) : State :=
  if s.u = .ok ∧ req.isEmpty = false then flErase req s else skipErase s

/-- The bracket: unlock, erase, lock on every path (R196). -/
def eraseBracket (req : EraseReq) (s : State) : State := flLock (eraseStep req (flUnlock s))

/-- ERASE_FLASH (R191). -/
def execEraseFlash (pidx pcnt : Byte) (s : State) : Host.Outcome State Fault Refusal :=
  .next (raise .replied (
    if eraseAllowed s.cfg pidx pcnt then
      let t := eraseBracket (eraseRequest s.cfg pidx pcnt) s
      send (ackReply [t.eraseStatus]) t
    else send (ackReply [eraseFail]) s))

end Sys2Proof.Machine
end

