-- ==== Sys2Proof/Machine/Jump.lean ====
section
/-! DEFINITION. JUMP_TO_ADDRESS (42_jump.md R172, R173). -/

namespace Sys2Proof.Machine

/-- JUMP_TO_ADDRESS (R172): the reply first, then the transfer to `(addr + 1) mod 2^32` (R173). -/
def execJumpToAddress (addr : W32) (s : State) : Host.Outcome State Fault Refusal :=
  .next (
    if isValid s.cfg addr then
      raise .handedOff (xfer (addr + 1) (send (ackReply [addrValid]) s))
    else
      raise .replied (send (ackReply [addrInvalid]) s))

end Sys2Proof.Machine
end

