-- ==== Sys2Proof/Machine/Protect.lean ====
section
/-! DEFINITION. The protection-level change, code 0x21 (45_protection_level.md R230 to R236). -/

namespace Sys2Proof.Machine

/-- The level a request names, where it may be asked for: level 2 and every other value are refused
(R231, R233). -/
def requestedLevel (lvl : Byte) : Option SetLevel :=
  if lvl = 0 then some .level0
  else if lvl = 1 then some .level1
  else none

/-- `p <- fail` where no program call is made (R231). -/
def skipProgram (s : State) : State := { s with p := .fail }

/-- `r <- fail` where no reload call is made (R231). -/
def skipReload (s : State) : State := { s with r := .fail }

/-- The program step (R234): made when the unlock answered `ok`. -/
def ropProgramStep (k : SetLevel) (s : State) : State :=
  if s.u = .ok then obProg k s else skipProgram s

/-- The reload step (R234): made when the unlock and the program answered `ok`. -/
def ropReloadStep (k : SetLevel) (s : State) : State :=
  if s.u = .ok ∧ s.p = .ok then obReload k s else skipReload s

/-- The bracket: unlock, program, reload, lock on every path (R234). -/
def ropBracket (k : SetLevel) (s : State) : State :=
  obLock (ropReloadStep k (ropProgramStep k (obUnlock s)))

/-- DISABLE_RW_PROTECT: the protection-level change (R231). -/
def execDisableRwProtect (lvl : Byte) (s : State) : Host.Outcome State Fault Refusal :=
  .next (raise .replied (
    match requestedLevel lvl with
    | some k =>
      let t := ropBracket k s
      send (ackReply [t.ropStatus]) t
    | none => send (ackReply [ropChangeInvalid]) s))

end Sys2Proof.Machine
end

