-- ==== Sys2Proof/Machine/Query.lean ====
section
/-! DEFINITION. The query commands (41_query_commands.md R150 to R155). -/

namespace Sys2Proof.Machine

/-- GET_VERSION (R151). -/
def execGetVersion (s : State) : Host.Outcome State Fault Refusal :=
  .next (raise .replied
    (send (ackReply [s.cfg.vendor, s.cfg.major, s.cfg.minor, s.cfg.patch]) s))

/-- GET_HELP (R152). -/
def execGetHelp (s : State) : Host.Outcome State Fault Refusal :=
  .next (raise .replied (send (ackReply cmdSet) s))

/-- GET_CHIP_ID (R153). -/
def execGetChipId (s : State) : Host.Outcome State Fault Refusal :=
  .next (raise .replied (send (ackReply s.cfg.chipId) s))

/-- GET_PROTECTION_STATUS (R154). -/
def execGetProtectionStatus (s : State) : Host.Outcome State Fault Refusal :=
  .next (raise .replied (send (ackReply [s.rop.toByte]) (ropRead s)))

end Sys2Proof.Machine
end

