-- ==== Sys2Proof/Machine/Unimplemented.lean ====
section
/-! DEFINITION. The four defined commands without behaviour (46_unimplemented_commands.md R250 to R254):
each sends `ACK(0)` and does nothing else. -/

namespace Sys2Proof.Machine

/-- The whole behaviour of the four (R250). -/
def acknowledgeOnly (s : State) : State := raise .replied (send (ackReply []) s)

/-- ENABLE_RW_PROTECT (R251). -/
def execEnableRwProtect (s : State) : Host.Outcome State Fault Refusal := .next (acknowledgeOnly s)

/-- MEMORY_READ (R252). -/
def execMemoryRead (s : State) : Host.Outcome State Fault Refusal := .next (acknowledgeOnly s)

/-- GET_PAGE_PROTECTION_STATUS (R253). -/
def execGetPageProtectionStatus (s : State) : Host.Outcome State Fault Refusal :=
  .next (acknowledgeOnly s)

/-- READ_OTP (R254). -/
def execReadOtp (s : State) : Host.Outcome State Fault Refusal := .next (acknowledgeOnly s)

end Sys2Proof.Machine
end

