-- ==== Sys2Proof/Machine/Write.lean ====
section
/-! DEFINITION. MEMORY_WRITE and the write sequencer (44_flash_write.md R210 to R216). -/

namespace Sys2Proof.Machine

/-- The loop's start: `w <- ok ; wi <- 0` (R211). -/
def beginLoop (s : State) : State := { s with w := .ok, wi := 0 }

/-- `wi <- wi + 1` (R211). -/
def bumpIndex (s : State) : State := { s with wi := s.wi + 1 }

/-- `if w = ok then wi <- wi + 1` (R211). -/
def countWritten (s : State) : State := if s.w = .ok then bumpIndex s else s

/-- The program loop (R213): one call a byte at `(addr + wi) mod 2^32`, in ascending order, until one
fails (R214). -/
def programLoop (addr : W32) : List Byte → State → State
  | [], s => s
  | b :: bs, s =>
    if s.w = .ok then
      programLoop addr bs (countWritten (flProg (addr + BitVec.ofNat 32 s.wi) b s))
    else s

/-- The guarded part of the bracket (R211): the loop runs when the unlock answered `ok`. -/
def writeStep (addr : W32) (wdata : List Byte) (s : State) : State :=
  if s.u = .ok then programLoop addr wdata (beginLoop s) else beginLoop s

/-- The bracket: unlock, program, lock on every path (R215). -/
def writeBracket (addr : W32) (wdata : List Byte) (s : State) : State :=
  flLock (writeStep addr wdata (flUnlock s))

/-- MEMORY_WRITE (R211). -/
def execMemoryWrite (addr : W32) (wdata : List Byte) (s : State) : Host.Outcome State Fault Refusal :=
  .next (raise .replied (
    if isValid s.cfg addr then
      let t := writeBracket addr wdata s
      send (ackReply [t.writeStatus]) t
    else send (ackReply [writeAddrInvalid]) s))

end Sys2Proof.Machine
end

