-- ==== Sys2Proof/Machine/Dispatch.lean ====
section
/-! DEFINITION. Handler invocation (R132): one meaning per command.  A whole handler is one step (DESIGN
CHOICE, safe, log entry 17), and every call it makes is answered (DESIGN CHOICE, unsafe, log entry 18). -/

namespace Sys2Proof.Machine

def exec (i : Instr) (s : State) : Host.Outcome State Fault Refusal :=
  match i with
  | .getVersion _ => Sys2Proof.Machine.execGetVersion s
  | .getHelp _ => Sys2Proof.Machine.execGetHelp s
  | .getChipId _ => Sys2Proof.Machine.execGetChipId s
  | .getProtectionStatus _ => Sys2Proof.Machine.execGetProtectionStatus s
  | .jumpToAddress addr _ => Sys2Proof.Machine.execJumpToAddress addr s
  | .eraseFlash pidx pcnt _ => Sys2Proof.Machine.execEraseFlash pidx pcnt s
  | .memoryWrite addr wdata _ => Sys2Proof.Machine.execMemoryWrite addr wdata s
  | .enableRwProtect _ => Sys2Proof.Machine.execEnableRwProtect s
  | .memoryRead _ => Sys2Proof.Machine.execMemoryRead s
  | .getPageProtectionStatus _ => Sys2Proof.Machine.execGetPageProtectionStatus s
  | .readOtp _ => Sys2Proof.Machine.execReadOtp s
  | .disableRwProtect lvl _ => Sys2Proof.Machine.execDisableRwProtect lvl s

end Sys2Proof.Machine
end

