-- ==== Sys2Proof/Machine/Pipeline.lean ====
section
/-! DEFINITION. The phases before a handler runs (40_frame_pipeline.md R120 to R131), one step each: the
Frame Reader, the Integrity Verifier and the Command Dispatcher; and how a frame is put where the handler
phase fetches it. -/

namespace Sys2Proof.Machine

/-- `AWAIT_LEN` (R121, R122, R124): `rx(1)`, the oversize test, and the short-frame test for `N = 0`. -/
def awaitLenStep (s : State) : Host.Outcome State Fault Refusal :=
  .next (
    match s.rxAnswer 1 with
    | .timeout => raise .timeout (recv 1 s)
    | .bytes bs =>
      let t := storeFb 0 bs (recv 1 s)
      if s.cfg.bufCap < t.lenLatch + 1 then raise (.oversize t.lenLatch) t
      else if t.lenLatch = 0 then raise (.shortFrame 0) t
      else setPhase .awaitBody t)

/-- `AWAIT_BODY` (R123, R124, R125): `rx(N)` and the short-frame test. -/
def awaitBodyStep (s : State) : Host.Outcome State Fault Refusal :=
  if s.lenLatch = 0 ∨ s.cfg.bufCap < s.lenLatch + 1 then .fault (.phaseBroken .awaitBody)
  else .next (
    match s.rxAnswer s.lenLatch with
    | .timeout => raise .timeout (recv s.lenLatch s)
    | .bytes bs =>
      let t := storeFb 1 bs (recv s.lenLatch s)
      if s.lenLatch < 5 then raise (.shortFrame s.lenLatch) t
      else setPhase .verify t)

/-- `VERIFY` (R126, R127, R128): the checksum and the integrity gate. -/
def verifyStep (s : State) : Host.Outcome State Fault Refusal :=
  if s.lenLatch < 5 ∨ s.cfg.bufCap < s.lenLatch + 1 then .fault (.phaseBroken .verify)
  else .next (
    let t := checkCrc s
    if t.crcPass then setPhase .dispatch t else raise .integrityFailure t)

/-- `DISPATCH` (R130, R131): the lookup and the payload shape check. -/
def dispatchStep (s : State) : Host.Outcome State Fault Refusal :=
  if s.crcPass = false ∨ s.lenLatch < 5 ∨ s.cfg.bufCap < s.lenLatch + 1 then
    .fault (.phaseBroken .dispatch)
  else .next (
    if s.code ∉ cmdSet then raise (.unsupportedCommand s.code) s
    else if payloadShapeOk s.code s.payload = false then raise (.malformedPayload s.code) s
    else setPhase .exec s)

/-- A frame in the frame buffer, verified and looked up: the state in which its handler runs next. -/
def loadFrame (frame : List Byte) (s : State) : State :=
  { s with
    fb := (frame ++ List.replicate (s.cfg.bufCap - frame.length) 0).take s.cfg.bufCap
    crcPass := true
    phase := .exec
    handedOff := false }

end Sys2Proof.Machine
end

