-- ==== Sys2Proof/Machine/Step.lean ====
section
/-! DEFINITION. One step: one transition of the sequencer (R26, R120). -/

namespace Sys2Proof.Machine

/-- One transition of R26.  In `EXEC` the command in the frame buffer runs; a buffer that holds none is a
state no run reaches.  `HANDED_OFF` is absorbing and makes no event (R174).  What the code control went to
does is outside the engine; that memory, the level, the lock bits and the transport stay as they are until
the reset is the model's (DESIGN CHOICE, unsafe, log entry 38). -/
def step (s : State) : Host.Outcome State Fault Refusal :=
  match s.phase with
  | .awaitLen => awaitLenStep s
  | .awaitBody => awaitBodyStep s
  | .verify => verifyStep s
  | .dispatch => dispatchStep s
  | .exec =>
    match s.fetch with
    | .instr i => exec i s
    | .rejected _ => .fault (.phaseBroken .exec)
  | .handedOff => .next s

/-- The state with a table word's minimal frame where `EXEC` fetches it, its CRC that of the state's
checksum function (DESIGN CHOICE, unsafe, log entry 15). -/
def State.withFetchWord (s : State) (nbits w : Nat) : State :=
  loadFrame (tableFrame (crc32 s.cfg.crc) nbits w) s

end Sys2Proof.Machine
end

