-- ==== Sys2Proof/Machine/Reset.lean ====
section
/-! DEFINITION. A reset of a machine that has run (R55, R290, R291), and what the boot-time Application
Launcher reads (R297), which stands beside the engine. -/

namespace Sys2Proof.Machine

/-- The phase a boot mode starts in (R291). -/
def BootMode.phase : BootMode → Phase
  | .engine => .awaitLen
  | .launchApp => .handedOff

/-- `handed_off` as a boot mode starts it (R27, R291). -/
def BootMode.handedOff : BootMode → Bool
  | .engine => false
  | .launchApp => true

/-- Any reset (R55, R290): the engine's state takes its reset values, the configuration, `ROP` and the
flash part of `MEM` stay, the other bytes of `MEM` lose their values, both driver locks are set (R293).
What the environment will answer and what has been observed are not the machine's to reset.  The values
the spec leaves unspecified are those of `State.reset` (log entries 3, 9, 10). -/
def State.resetFrom (mode : BootMode) (s : State) : State :=
  { s with
    phase := mode.phase
    handedOff := mode.handedOff
    fb := List.replicate s.cfg.bufCap 0
    crcPass := false
    wi := 0
    u := .fail, e := .fail, w := .fail, p := .fail, r := .fail, l := .fail
    crcAcc := 0
    flLocked := true, obLocked := true
    mem := s.mem.keepRange s.cfg.flashBase.toNat s.cfg.flashEnd.toNat }

/-- `MemRead(a, 4)` as a little-endian word (R19, R297), where all four bytes have a value.  The byte
addresses are natural numbers and do not wrap (R18).  A read that runs past `0xFFFFFFFF` gives no value,
since addresses from `2^32` on do not exist (R60): the spec does not say what it gives (DESIGN CHOICE, safe,
log entry 35). -/
def Memory.readWord (m : Memory) (a : Nat) : Option W32 :=
  if addressLimit < a + 4 then none
  else
    match m.read a, m.read (a + 1), m.read (a + 2), m.read (a + 3) with
    | some b0, some b1, some b2, some b3 => some (le32Of b0 b1 b2 b3)
    | _, _, _, _ => none

/-- The stack pointer and the address the launcher transfers control to, with no `+ 1` (R176, R297).  The
sum `APP_BASE + 4` does not wrap (R18).  Where a word runs past the end of the address space it has no value
(DESIGN CHOICE, safe, log entry 35). -/
def State.launcherReads (s : State) : Option W32 × Option W32 :=
  (s.mem.readWord s.cfg.appBase.toNat, s.mem.readWord (s.cfg.appBase.toNat + 4))

end Sys2Proof.Machine
end

