-- ==== Sys2Proof/Machine/Power.lean ====
section
/-! DEFINITION. A loss of power, between two steps or inside one (R285, R63: no command is atomic).  What a
step does to the device is the effect of its interface calls in their order (R53, R70), so a step cut short
is its first calls done again from the state it began in, perhaps the part of one more, and a reset. -/

namespace Sys2Proof.Machine

/-- The level the command in the buffer asks for (R231): what its option-byte calls are about. -/
def State.askedLevel (s : State) : SetLevel :=
  match s.fetch with
  | .instr (.disableRwProtect lvl _) => (requestedLevel lvl).getD .level0
  | _ => .level0

/-- The operation whose interface call an event records (R53), its option-byte calls being about a level. -/
def redo (k : SetLevel) (ev : Event) (s : State) : State :=
  match ev with
  | .rx n _ => recv n s
  | .tx bs => send bs s
  | .crc _ _ => checkCrc s
  | .flUnlock _ => flUnlock s
  | .flErase req _ => flErase req s
  | .flProg a v _ => flProg a v s
  | .flLock _ => flLock s
  | .obUnlock _ => obUnlock s
  | .obProg _ _ => obProg k s
  | .obReload _ => obReload k s
  | .obLock _ => obLock s
  | .ropRead _ => ropRead s
  | .xfer target => xfer target s

/-- Do the calls of a list of events in their order. -/
def redoAll (k : SetLevel) (evs : List Event) (s : State) : State :=
  evs.foldl (fun t ev => redo k ev t) s

/-- A call that power is lost in: it never answers, so it makes no event, and memory and `ROP` are left as
such a call may leave them when it fails (R66 to R68, R285).  DESIGN CHOICE, unsafe (log entry 34): the spec
says nothing of what an interrupted call leaves. -/
def cutOff (k : SetLevel) (ev : Event) (s : State) : State :=
  let t := redo k ev { s with answers := .fail :: s.answers }
  { s with mem := t.mem, rop := t.rop, calls := t.calls }

/-- Between an option-byte program that answered `ok` and the reload (R68), the level a reset finds is the
old one or the requested one: the program has succeeded, and only the reload makes it take effect.  DESIGN
CHOICE, safe (log entry 34): the spec says nothing of it (R285, N14). -/
def settleLevel (k : SetLevel) (done : List Event) (s : State) : State :=
  match done.getLast? with
  | some (.obProg _ .ok) => { s with rop := freeLevel s.calls s.rop k, calls := s.calls + 1 }
  | _ => s

/-- The events the next step makes if it is not cut short. -/
def State.stepEvents (s : State) : List Event :=
  match step s with
  | .next t => t.events.drop s.events.length
  | .fault _ => []
  | .refused _ => []

/-- The state in which power is lost: after the first `n` calls of the next step and, where `inCall`, inside
the call after them. -/
def State.cutShort (n : Nat) (inCall : Bool) (s : State) : State :=
  let done := s.stepEvents.take n
  let t := redoAll s.askedLevel done s
  match inCall, s.stepEvents[n]? with
  | true, some ev => cutOff s.askedLevel ev t
  | true, none => settleLevel s.askedLevel done t
  | false, _ => settleLevel s.askedLevel done t

/-- Power is lost inside the next step and comes back, or a reset comes from outside inside it (R285, N14):
what the calls made so far did stays where it persists, and all else takes its reset values (R55).  No lock
call of the cut step is made. -/
def State.powerLoss (mode : BootMode) (n : Nat) (inCall : Bool) (s : State) : State :=
  (s.cutShort n inCall).resetFrom mode

end Sys2Proof.Machine
end

