-- ==== Sys2Proof/Safety.lean ====
section
/-! DEFINITION. What counts as a safe run, in the terms the claims use: the machine's invariant (R20, R26,
R27, R134), the unlock and lock brackets of the event sequence (R71, R196, R215, R234), the replies that
may be sent (R112), the contracts of the interface calls (R40, R41, R45, R48, R65, R126), and what two
states have in common. -/

namespace Sys2Proof.Machine

/-! ### The invariant -/

/-- A whole frame stands in the buffer: `5 <= N` and `N + 1 <= BUF_CAP` (R91, R122, R125). -/
def State.holdsFrame (s : State) : Prop := 5 ≤ s.lenLatch ∧ s.lenLatch + 1 ≤ s.cfg.bufCap

/-- What the phase promises (R26, R120, R134). -/
def State.phaseOk (s : State) : Prop :=
  match s.phase with
  | .awaitLen => s.fb = List.replicate s.cfg.bufCap 0 ∧ s.crcPass = false
  | .awaitBody => 1 ≤ s.lenLatch ∧ s.lenLatch + 1 ≤ s.cfg.bufCap ∧ s.crcPass = false
  | .verify => s.holdsFrame ∧ s.crcPass = false
  | .dispatch => s.holdsFrame ∧ s.crcPass = true ∧ s.crcMatches = true
  | .exec => s.holdsFrame ∧ s.crcPass = true ∧ s.crcMatches = true ∧ ∃ i, s.fetch = .instr i
  | .handedOff => True

/-- The machine's invariant: it rules out the states no run reaches. -/
structure Inv (s : State) : Prop where
  /-- The configuration meets the spec's constraints (R7, R8, R9, R14, R15, R293). -/
  cfgOk : s.cfg.wf = true
  /-- `FB` has `BUF_CAP` bytes (R20). -/
  fbLength : s.fb.length = s.cfg.bufCap
  /-- `MEM` is in canonical form. -/
  memWf : s.mem.wf
  /-- `handed_off` is 1 exactly when `phase = HANDED_OFF` (R27). -/
  handOff : s.handedOff = true ↔ s.phase = .handedOff
  /-- `wi` is in `0 .. 255` (R23). -/
  wiRange : s.wi ≤ 255
  /-- The buffer and `crc_pass` are as the phase promises. -/
  phaseIs : s.phaseOk

/-! ### Brackets -/

/-- Where an event sequence stands with respect to the unlock and lock brackets. -/
inductive Bracket where
  /-- No bracket is open. -/
  | closed
  /-- The flash unlock answered `ok` and no guarded call has failed: a program call or one erase. -/
  | flashOpen
  /-- Only the flash lock may follow. -/
  | flashSpent
  /-- The option-byte unlock answered `ok`: the program call must follow. -/
  | optionOpen
  /-- The option-byte program answered `ok`: the reload must follow. -/
  | optionStaged
  /-- Only the option-byte lock may follow. -/
  | optionSpent
  /-- The discipline was broken. -/
  | broken
deriving DecidableEq, Repr

/-- One event's effect on the bracket (R71, R196, R214, R215, R234): a guarded call only after an unlock
that answered `ok`, none after a failed one, nothing else inside a bracket, and a lock at its end. -/
def Bracket.next : Bracket → Event → Bracket
  | .closed, .rx _ _ => .closed
  | .closed, .tx _ => .closed
  | .closed, .crc _ _ => .closed
  | .closed, .ropRead _ => .closed
  | .closed, .xfer _ => .closed
  | .closed, .flUnlock .ok => .flashOpen
  | .closed, .flUnlock .fail => .flashSpent
  | .closed, .obUnlock .ok => .optionOpen
  | .closed, .obUnlock .fail => .optionSpent
  | .flashOpen, .flProg _ _ .ok => .flashOpen
  | .flashOpen, .flProg _ _ .fail => .flashSpent
  | .flashOpen, .flErase _ _ => .flashSpent
  | .flashOpen, .flLock _ => .closed
  | .flashSpent, .flLock _ => .closed
  | .optionOpen, .obProg _ .ok => .optionStaged
  | .optionOpen, .obProg _ .fail => .optionSpent
  | .optionStaged, .obReload _ => .optionSpent
  | .optionSpent, .obLock _ => .closed
  | _, _ => .broken

/-- Where a whole event sequence leaves the brackets. -/
def bracketAfter (evs : List Event) : Bracket := evs.foldl Bracket.next .closed

/-! ### Replies and call contracts -/

/-- Every byte sequence the engine may transmit (R112). -/
def legalReplies (c : Cfg) : List (List Byte) :=
  [ [0xAB],
    [0xCD, 0x04, c.vendor, c.major, c.minor, c.patch],
    [0xCD, 0x0C, 0x10, 0x11, 0x12, 0x13, 0x14, 0x15, 0x16, 0x17, 0x18, 0x19, 0x20, 0x21],
    [0xCD, BitVec.ofNat 8 c.chipId.length] ++ c.chipId,
    [0xCD, 0x01, 0x00],
    [0xCD, 0x01, 0x01],
    [0xCD, 0x01, 0x02],
    [0xCD, 0x00] ]

/-- The contract of each interface call (R40, R41, R45, R48, R52, R126). -/
def eventOk (c : Cfg) : Event → Prop
  | .rx n r => 1 ≤ n ∧ n ≤ 255 ∧ ∀ bs, r = .bytes bs → bs.length = n
  | .tx bs => 1 ≤ bs.length ∧ bs.length ≤ 257 ∧ bs ∈ legalReplies c
  | .crc bs v => 2 ≤ bs.length ∧ bs.length + 4 ≤ c.bufCap ∧ v = crc32 c.crc bs
  | .flErase .mass _ => True
  | .flErase (.pages first count) _ => first < c.maxPage ∧ 1 ≤ count ∧ first + count ≤ c.maxPage
  | .obProg enc _ => enc = c.ropEnc0 ∨ enc = c.ropEnc1
  | .xfer t => isValid c (t - 1) = true
  | .flUnlock _ => True
  | .flProg _ _ _ => True
  | .flLock _ => True
  | .obUnlock _ => True
  | .obReload _ => True
  | .obLock _ => True
  | .ropRead _ => True

/-- The event is a call on a driver or on the platform: what R270 says no frame-level outcome has made. -/
def Event.isHandlerCall : Event → Bool
  | .rx _ _ => false
  | .tx _ => false
  | .crc _ _ => false
  | .flUnlock _ => true
  | .flErase _ _ => true
  | .flProg _ _ _ => true
  | .flLock _ => true
  | .obUnlock _ => true
  | .obProg _ _ => true
  | .obReload _ => true
  | .obLock _ => true
  | .ropRead _ => true
  | .xfer _ => true

/-- The event is a transmission. -/
def Event.isTx : Event → Bool
  | .tx _ => true
  | _ => false

/-- The event is a receive or a checksum call: what only the phases before a handler make (R127, R132). -/
def Event.isFrontEnd : Event → Bool
  | .rx _ _ => true
  | .crc _ _ => true
  | _ => false

/-- The event is a transfer of control. -/
def Event.isXfer : Event → Bool
  | .xfer _ => true
  | _ => false

/-! ### Pages and flipped bits -/

/-- Address `a` is one of the bytes of page `p` (R67): inside the page and inside the address space. -/
def inPage (c : Cfg) (p a : Nat) : Prop :=
  c.flashBase.toNat + p * c.pageSize ≤ a ∧ a < c.flashBase.toNat + (p + 1) * c.pageSize ∧
    a < addressLimit

/-- The request names page `p` (R67). -/
def EraseReq.names (c : Cfg) : EraseReq → Nat → Prop
  | .mass, p => p < c.maxPage
  | .pages first count, p => first ≤ p ∧ p < first + count

/-- A byte sequence with bit `b` of byte `i` flipped. -/
def flipBit (bs : List Byte) (i b : Nat) : List Byte := bs.modify i (fun x => x ^^^ (1#8 <<< b))

/-- Property (b) of R11 for a checksum function: two byte sequences of one length that differ in exactly one
bit have different checksums. -/
def SeesEveryFlippedBit (crc : List Byte → W32) : Prop :=
  ∀ (bs : List Byte) (i b : Nat), i < bs.length → b < 8 → crc (flipBit bs i b) ≠ crc bs

/-- An address of the flash region (R8), whose bytes a reset keeps (R55). -/
def inFlash (c : Cfg) (a : Nat) : Prop := c.flashBase.toNat ≤ a ∧ a ≤ c.flashEnd.toNat

/-! ### Runs -/

/-- `k` steps, stopping at the first fault or refusal. -/
def runSteps : Nat → State → Host.Outcome State Fault Refusal
  | 0, s => .next s
  | k + 1, s =>
    match step s with
    | .next t => runSteps k t
    | .fault r => .fault r
    | .refused r => .refused r

/-! ### What two states have in common -/

/-- The events between two states (R53). -/
@[simp] abbrev Added (s t : State) (evs : List Event) : Prop := t.events = s.events ++ evs

/-- `t` stands at the start of the next command cycle (R133, R134, R270). -/
structure CycleBegun (s t : State) : Prop where
  phase : t.phase = .awaitLen
  crcPass : t.crcPass = false
  fb : t.fb = List.replicate s.cfg.bufCap 0

/-- The engine's registers outside the frame cycle are as they were: the configuration, `handed_off`, the
write loop index, the bracket result flags and the CRC accumulator. -/
structure SameRegisters (s t : State) : Prop where
  cfg : t.cfg = s.cfg
  handedOff : t.handedOff = s.handedOff
  wi : t.wi = s.wi
  u : t.u = s.u
  e : t.e = s.e
  w : t.w = s.w
  p : t.p = s.p
  r : t.r = s.r
  l : t.l = s.l
  crcAcc : t.crcAcc = s.crcAcc

/-- The driver's and the device's state is as it was, memory read byte by byte. -/
structure SameDevice (s t : State) : Prop where
  flLocked : t.flLocked = s.flLocked
  obLocked : t.obLocked = s.obLocked
  rop : t.rop = s.rop
  mem : ∀ a, t.mem.read a = s.mem.read a

/-- `n` driver answers have been used and nothing received. -/
structure UsedAnswers (n : Nat) (s t : State) : Prop where
  rxIn : t.rxIn = s.rxIn
  answers : t.answers = s.answers.drop n
  calls : t.calls = s.calls + n

/-- Nothing but the cycle and the event sequence has changed, and no driver call was made. -/
structure OnlyReplied (s t : State) : Prop where
  begun : CycleBegun s t
  regs : SameRegisters s t
  device : SameDevice s t
  used : UsedAnswers 0 s t

/-- What ERASE_FLASH and MEMORY_WRITE leave alone after `n` driver calls, and that the next cycle has
begun.  The flags `u` and `l`, the flash lock bit and the bytes of memory are for the statement to say; so
are `e` and, for MEMORY_WRITE, `w` and `wi`. -/
structure FlashFrame (n : Nat) (s t : State) : Prop where
  begun : CycleBegun s t
  used : UsedAnswers n s t
  cfg : t.cfg = s.cfg
  handedOff : t.handedOff = s.handedOff
  p : t.p = s.p
  r : t.r = s.r
  crcAcc : t.crcAcc = s.crcAcc
  obLocked : t.obLocked = s.obLocked
  rop : t.rop = s.rop

/-- What the protection-level change leaves alone after `n` driver calls, and that the next cycle has
begun.  The flags `u`, `p`, `r`, `l`, the option-byte lock bit and `ROP` are for the statement to say.  That
memory is untouched when the level falls is the model's choice (log entry 37). -/
structure OptionFrame (n : Nat) (s t : State) : Prop where
  begun : CycleBegun s t
  used : UsedAnswers n s t
  cfg : t.cfg = s.cfg
  handedOff : t.handedOff = s.handedOff
  wi : t.wi = s.wi
  e : t.e = s.e
  w : t.w = s.w
  crcAcc : t.crcAcc = s.crcAcc
  flLocked : t.flLocked = s.flLocked
  mem : ∀ a, t.mem.read a = s.mem.read a

/-- Two states agree on all a command may depend on (R29): the configuration, the environment's state and
its answers. -/
structure SameForCommands (s t : State) : Prop where
  cfg : t.cfg = s.cfg
  mem : t.mem = s.mem
  rop : t.rop = s.rop
  flLocked : t.flLocked = s.flLocked
  obLocked : t.obLocked = s.obLocked
  answers : t.answers = s.answers
  calls : t.calls = s.calls

end Sys2Proof.Machine
end

