-- ==== Sys2Proof/Certificates/Slice0/Obligations.lean ====
section
/-! DEFINITION. The statements for the provers.  Each docstring names the rule of spec/ it formalises; where
a clause rests on one of the spec's own decisions (D<n>) or on a choice of the model (a log entry), the
docstring says so. -/

open Sys2Proof Sys2Proof.Machine

/-! ### Encoding and decoding -/

/-- Frames written out byte by byte from R90, R96 to R100 and R115 decode to the commands they stand for.
The CRC fields are those of 95_test_vectors.md under CRC-A; decoding does not read them. -/
def Obligations.WrittenFramesDecode : Prop :=
  decode [0x05, 0x10, 0xDE, 0xF6, 0x19, 0x21] = .instr (.getVersion []) ∧
  decode [0x09, 0x14, 0x00, 0x80, 0x00, 0x08, 0x9B, 0x52, 0x43, 0xEC] =
    .instr (.jumpToAddress 0x08008000 []) ∧
  decode [0x07, 0x15, 0x02, 0x03, 0x06, 0xB5, 0x41, 0x0D] = .instr (.eraseFlash 0x02 0x03 []) ∧
  decode [0x0E, 0x16, 0x00, 0x80, 0x00, 0x08, 0x04, 0xDE, 0xAD, 0xBE, 0xEF, 0x74, 0xB6, 0x71, 0x04] =
    .instr (.memoryWrite 0x08008000 [0xDE, 0xAD, 0xBE, 0xEF] []) ∧
  decode [0x06, 0x21, 0x01, 0xD5, 0x80, 0x54, 0x00] = .instr (.disableRwProtect 0x01 []) ∧
  decode [0x05, 0x20, 0x72, 0xC6, 0xC0, 0x07] = .instr (.readOtp []) ∧
  decode [0x05, 0x22, 0x5E, 0xA7, 0xCE, 0xE9] = .rejected (.unknownCode 0x22)

/-- Decoding the frame of any well-formed command gives the command back, with every operand at every
value and whatever extra payload bytes it carries (R90 to R102, R115), whatever follows the frame. -/
def Obligations.DecodeOfEncodeIsTheCommand : Prop :=
  ∀ (crc : List Byte → W32) (cap : Nat) (i : Instr) (rest : List Byte), i.wf cap = true →
    decode (encode crc i ++ rest) = .instr i

/-- Whatever bytes decode to a command, the command's own covered region is the frame's: no bit of the
length byte, the code or the payload is dropped (R90, R94, R102). -/
def Obligations.EncodeOfDecodeIsTheCoveredRegion : Prop :=
  ∀ (bs : List Byte) (i : Instr), decode bs = .instr i →
    i.lengthByteFits = true ∧ (bs.getD 0 0).toNat + 1 ≤ bs.length ∧
      coveredBytes i.code i.payload = bs.take ((bs.getD 0 0).toNat - 3)

/-- Exactly the payloads of R101's table decode: the eight codes that need none, 4 bytes for 0x14, 2 for
0x15, 5 and then 5 + L for 0x16, 1 for 0x21; every other code is none of the twelve (R100, R103).  That a
short payload is rejected is the spec's decision D11. -/
def Obligations.DecodesExactlyTheListedShapes : Prop :=
  ∀ (code : Byte) (pl : List Byte),
    (∃ i, decodeFields code pl = .instr i) ↔
      (code ∈ ([0x10, 0x11, 0x12, 0x13, 0x17, 0x18, 0x19, 0x20] : List Byte) ∨
        (code = 0x14 ∧ 4 ≤ pl.length) ∨ (code = 0x15 ∧ 2 ≤ pl.length) ∨
        (code = 0x16 ∧ 5 ≤ pl.length ∧ 5 + (pl.getD 4 0).toNat ≤ pl.length) ∨
        (code = 0x21 ∧ 1 ≤ pl.length))

/-- The operands of a command in the frame buffer are the bytes R96 to R99 name: the address is
LE32(FB[2], FB[3], FB[4], FB[5]), L is FB[6], data byte i is FB[7 + i], the page index and count are FB[2]
and FB[3], the level is FB[2]; and the payload is as long as each of them needs. -/
def Obligations.OperandsAreTheNamedBytes : Prop :=
  ∀ (s : State) (i : Instr), s.holdsFrame → s.fb.length = s.cfg.bufCap → s.fetch = .instr i →
    match i with
    | .jumpToAddress a _ => 4 ≤ s.payloadLen ∧ a = le32Of (s.fbAt 2) (s.fbAt 3) (s.fbAt 4) (s.fbAt 5)
    | .eraseFlash pidx pcnt _ => 2 ≤ s.payloadLen ∧ pidx = s.fbAt 2 ∧ pcnt = s.fbAt 3
    | .memoryWrite a d _ =>
      5 + d.length ≤ s.payloadLen ∧ a = le32Of (s.fbAt 2) (s.fbAt 3) (s.fbAt 4) (s.fbAt 5) ∧
        d.length = (s.fbAt 6).toNat ∧ ∀ k, k < d.length → d.getD k 0 = s.fbAt (7 + k)
    | .disableRwProtect lvl _ => 1 ≤ s.payloadLen ∧ lvl = s.fbAt 2
    | _ => True

/-! ### The frame pipeline -/

/-- In `EXEC` a step is exactly the handler of the command the frame buffer decodes to (R132). -/
def Obligations.StepRunsTheDecodedCommand : Prop :=
  ∀ (s : State) (i : Instr), s.phase = .exec → s.fetch = .instr i → step s = exec i s

/-- With the bytes of a well-formed command's frame at the start of the frame buffer, a step in `EXEC` runs
exactly that command (R90, R132). -/
def Obligations.StepRunsTheEncodedCommand : Prop :=
  ∀ (s : State) (i : Instr) (crc : List Byte → W32) (rest : List Byte), s.phase = .exec →
    i.wf s.cfg.bufCap = true → s.fb = encode crc i ++ rest → step s = exec i s

/-- A timeout on the length byte (R121): nothing is transmitted, the next cycle begins, and nothing else of
the engine or the device changes. -/
def Obligations.LengthByteTimeoutIsSilent : Prop :=
  ∀ (s : State), Inv s → s.phase = .awaitLen → s.rxAnswer 1 = .timeout →
    ∃ t, step s = .next t ∧ Added s t [.rx 1 .timeout] ∧ CycleBegun s t ∧
      SameRegisters s t ∧ SameDevice s t ∧ t.fb = s.fb ∧ t.crcPass = s.crcPass ∧
      t.answers = s.answers ∧ t.calls = s.calls

/-- A length byte `b` (R121, R122, R124): one that does not fit the buffer draws a NACK and no body is read
(the spec's decision D3); 0 draws a NACK at once (D4); any other is latched and the body is asked for. -/
def Obligations.LengthByteDecidesTheBody : Prop :=
  ∀ (s : State) (b : Byte), Inv s → s.phase = .awaitLen → s.rxAnswer 1 = .bytes [b] →
    ∃ t, step s = .next t ∧ SameRegisters s t ∧ SameDevice s t ∧
      t.answers = s.answers ∧ t.calls = s.calls ∧ s.rxIn = .byte b :: t.rxIn ∧
      if s.cfg.bufCap < b.toNat + 1 ∨ b = 0 then
        Added s t [.rx 1 (.bytes [b]), .tx [0xAB]] ∧ CycleBegun s t
      else
        Added s t [.rx 1 (.bytes [b])] ∧ t.phase = .awaitBody ∧ t.fbAt 0 = b ∧
          t.outstandingRx = some b.toNat

/-- The body (R123, R124, R125): a timeout is silent; a body of fewer than 5 bytes draws a NACK and no
checksum is computed (the spec's decisions D4, D5); a longer one is stored and goes to the verifier. -/
def Obligations.BodyIsStoredOrDiscarded : Prop :=
  ∀ (s : State), Inv s → s.phase = .awaitBody →
    ∃ t, step s = .next t ∧ SameRegisters s t ∧ SameDevice s t ∧
      t.answers = s.answers ∧ t.calls = s.calls ∧
      match s.rxAnswer s.lenLatch with
      | .timeout => Added s t [.rx s.lenLatch .timeout] ∧ CycleBegun s t
      | .bytes bs =>
        bs.length = s.lenLatch ∧ s.rxIn = bs.map .byte ++ t.rxIn ∧
          if s.lenLatch < 5 then
            Added s t [.rx s.lenLatch (.bytes bs), .tx [0xAB]] ∧ CycleBegun s t
          else
            Added s t [.rx s.lenLatch (.bytes bs)] ∧ t.phase = .verify ∧
              t.fbAt 0 = s.fbAt 0 ∧ ∀ k, k < s.lenLatch → t.fbAt (1 + k) = bs.getD k 0

/-- The Integrity Verifier (R94, R126, R128): one checksum of FB[0 .. N-4], compared with
LE32(FB[N-3], FB[N-2], FB[N-1], FB[N]); a mismatch draws exactly one NACK and runs no handler. -/
def Obligations.ChecksumDecidesTheGate : Prop :=
  ∀ (s : State), s.holdsFrame → s.phase = .verify →
    ∃ t, step s = .next t ∧ SameDevice s t ∧ UsedAnswers 0 s t ∧ t.cfg = s.cfg ∧
      t.handedOff = s.handedOff ∧ t.wi = s.wi ∧ t.u = s.u ∧ t.e = s.e ∧ t.w = s.w ∧ t.p = s.p ∧
      t.r = s.r ∧ t.l = s.l ∧
      if crc32 s.cfg.crc (s.fb.take (s.lenLatch - 3)) =
          le32Of (s.fbAt (s.lenLatch - 3)) (s.fbAt (s.lenLatch - 2)) (s.fbAt (s.lenLatch - 1))
            (s.fbAt s.lenLatch) then
        Added s t [.crc (s.fb.take (s.lenLatch - 3))
            (crc32 s.cfg.crc (s.fb.take (s.lenLatch - 3)))] ∧
          t.phase = .dispatch ∧ t.crcPass = true ∧ t.fb = s.fb
      else
        Added s t [.crc (s.fb.take (s.lenLatch - 3))
            (crc32 s.cfg.crc (s.fb.take (s.lenLatch - 3))), .tx [0xAB]] ∧ CycleBegun s t

/-- The Command Dispatcher (R130, R131): a code outside the twelve is dropped in silence; a payload too
short for its code draws a NACK and no handler runs (the spec's decision D11); any other frame goes to its
handler, unchanged. -/
def Obligations.DispatcherLooksUpAndChecksShape : Prop :=
  ∀ (s : State), s.holdsFrame → s.phase = .dispatch → s.crcPass = true →
    ∃ t, step s = .next t ∧ SameRegisters s t ∧ SameDevice s t ∧ UsedAnswers 0 s t ∧
      if s.fbAt 1 ∉ cmdSet then t.events = s.events ∧ CycleBegun s t
      else if payloadShapeOk (s.fbAt 1) s.payload = false then
        Added s t [.tx [0xAB]] ∧ CycleBegun s t
      else t.events = s.events ∧ t.phase = .exec ∧ t.fb = s.fb ∧ t.crcPass = true

/-- The command cycle of R120, from its start: the frame of any well-formed command that arrives with the
right checksum is received with two calls, verified with one, looked up, and run by its own handler in the
fifth step; until then nothing but those three events has happened.  That every call of these steps answers
is the model's choice (R311; log entry 18). -/
def Obligations.GoodFrameRunsItsHandler : Prop :=
  ∀ (s : State) (i : Instr) (rest : List RxItem), Inv s → s.phase = .awaitLen →
    i.wf s.cfg.bufCap = true →
    s.rxIn = (encode (crc32 s.cfg.crc) i).map .byte ++ rest →
    ∃ t, runSteps 4 s = .next t ∧ t.phase = .exec ∧ t.fetch = .instr i ∧ t.crcPass = true ∧
      t.rxIn = rest ∧ t.cfg = s.cfg ∧ SameDevice s t ∧ t.answers = s.answers ∧ t.calls = s.calls ∧
      Added s t
        [.rx 1 (.bytes ((encode (crc32 s.cfg.crc) i).take 1)),
          .rx (i.payloadLen + 5) (.bytes ((encode (crc32 s.cfg.crc) i).drop 1)),
          .crc (coveredBytes i.code i.payload)
            (crc32 s.cfg.crc (coveredBytes i.code i.payload))] ∧
      runSteps 5 s = exec i t

/-- Scenario 3 of the source (S8, R128, R265, R270): a complete frame of any code and payload whose CRC field
is not the checksum of its covered region draws exactly one NACK, and no driver call, no read of the
protection level and no transfer is made. -/
def Obligations.BadChecksumDrawsOneNack : Prop :=
  ∀ (s : State) (code : Byte) (pl : List Byte) (d : W32) (rest : List RxItem), Inv s →
    s.phase = .awaitLen → pl.length + 6 ≤ s.cfg.bufCap →
    d ≠ crc32 s.cfg.crc (coveredBytes code pl) →
    s.rxIn = (coveredBytes code pl ++ le32Bytes d).map .byte ++ rest →
    ∃ t, runSteps 3 s = .next t ∧ CycleBegun s t ∧ t.rxIn = rest ∧ t.cfg = s.cfg ∧
      SameDevice s t ∧ t.answers = s.answers ∧ t.calls = s.calls ∧
      Added s t
        [.rx 1 (.bytes [BitVec.ofNat 8 (pl.length + 5)]),
          .rx (pl.length + 5) (.bytes (code :: (pl ++ le32Bytes d))),
          .crc (coveredBytes code pl) (crc32 s.cfg.crc (coveredBytes code pl)), .tx [0xAB]]

/-- Property (b) of R11 for both candidates of 93_implementation_defined.md (G1, G2, general knowledge of
the spec's; log entry 31): flipping one bit of a byte sequence changes its checksum. -/
def Obligations.CandidateChecksumsSeeEveryFlippedBit : Prop :=
  SeesEveryFlippedBit crcA ∧ SeesEveryFlippedBit crcB

/-- The integrity gate is total (R129): under every checksum function with property (b) of R11, a frame that
would pass the verifier draws a NACK once a single bit of its code, its payload or its CRC field is
flipped.  That both candidates have the property is CandidateChecksumsSeeEveryFlippedBit. -/
def Obligations.FlippedBitDrawsNack : Prop :=
  ∀ (s : State) (i b : Nat), Inv s → s.phase = .verify → s.crcMatches = true →
    SeesEveryFlippedBit (crc32 s.cfg.crc) → 1 ≤ i → i ≤ s.lenLatch → b < 8 →
    ∃ t, step { s with fb := flipBit s.fb i b } = .next t ∧ CycleBegun s t ∧ SameDevice s t ∧
      ∃ c, Added s t [.crc ((flipBit s.fb i b).take (s.lenLatch - 3)) c, .tx [0xAB]]

/-! ### Queries and the commands without behaviour -/

/-- GET_VERSION (R151): its smallest frame is `[0x05, 0x10]` and the checksum; the reply is the version
tuple, whatever payload the frame has, and nothing else changes. -/
def Obligations.GetVersionReplies : Prop :=
  (∀ (crc : List Byte → W32),
      encode crc (.getVersion []) = [0x05, 0x10] ++ le32Bytes (crc [0x05, 0x10])) ∧
    ∀ (s : State) (x : List Byte), ∃ t, exec (.getVersion x) s = .next t ∧
      Added s t [.tx [0xCD, 0x04, s.cfg.vendor, s.cfg.major, s.cfg.minor, s.cfg.patch]] ∧
      OnlyReplied s t

/-- GET_HELP (R152): the reply lists the twelve codes (the spec's decision D8), and nothing else
changes. -/
def Obligations.GetHelpReplies : Prop :=
  ∀ (s : State) (x : List Byte), ∃ t, exec (.getHelp x) s = .next t ∧
    Added s t [.tx [0xCD, 0x0C, 0x10, 0x11, 0x12, 0x13, 0x14, 0x15, 0x16, 0x17, 0x18, 0x19,
      0x20, 0x21]] ∧
    OnlyReplied s t

/-- GET_CHIP_ID (R153): the reply is the length and the bytes of `CHIP_ID` (the spec's decision D13), and
nothing else changes. -/
def Obligations.GetChipIdReplies : Prop :=
  ∀ (s : State) (x : List Byte), ∃ t, exec (.getChipId x) s = .next t ∧
    Added s t [.tx ([0xCD, BitVec.ofNat 8 s.cfg.chipId.length] ++ s.cfg.chipId)] ∧
    OnlyReplied s t

/-- GET_PROTECTION_STATUS (R154): one read of the protection level and a reply with its number (the spec's
decision D13), and nothing else changes. -/
def Obligations.GetProtectionStatusReplies : Prop :=
  ∀ (s : State) (x : List Byte), ∃ t, exec (.getProtectionStatus x) s = .next t ∧
    Added s t [.ropRead s.rop, .tx [0xCD, 0x01,
      match s.rop with
      | .level0 => 0x00
      | .level1 => 0x01
      | .level2 => 0x02]] ∧
    OnlyReplied s t

/-- ENABLE_RW_PROTECT, MEMORY_READ, GET_PAGE_PROTECTION_STATUS and READ_OTP (R250 to R254): each sends
`ACK(0)` (the spec's decision D10) and changes nothing else. -/
def Obligations.UnimplementedCommandsAcknowledge : Prop :=
  ∀ (s : State) (x : List Byte) (i : Instr),
    i = .enableRwProtect x ∨ i = .memoryRead x ∨ i = .getPageProtectionStatus x ∨ i = .readOtp x →
    ∃ t, exec i s = .next t ∧ Added s t [.tx [0xCD, 0x00]] ∧ OnlyReplied s t

/-! ### Addresses and the jump -/

/-- The Address Validator accepts exactly the addresses of the two regions, both ends inclusive (R170). -/
def Obligations.ValidatorAcceptsExactlyTheRegions : Prop :=
  ∀ (c : Cfg) (a : W32), isValid c a = true ↔
    (c.ramBase.toNat ≤ a.toNat ∧ a.toNat ≤ c.ramEnd.toNat) ∨
      (c.flashBase.toNat ≤ a.toNat ∧ a.toNat ≤ c.flashEnd.toNat)

/-- The validator at the edges of both regions (R171): the bounds themselves are valid; the address after an
end and the address before a base, where they exist, are invalid unless they lie in the other region (the
spec's own derivation). -/
def Obligations.ValidatorEdges : Prop :=
  ∀ (c : Cfg), c.wf = true →
    isValid c c.flashBase = true ∧ isValid c c.flashEnd = true ∧
    isValid c c.ramBase = true ∧ isValid c c.ramEnd = true ∧
    (c.flashEnd ≠ 0xFFFFFFFF → c.flashEnd + 1 ≠ c.ramBase → isValid c (c.flashEnd + 1) = false) ∧
    (c.flashBase ≠ 0 → c.flashBase - 1 ≠ c.ramEnd → isValid c (c.flashBase - 1) = false) ∧
    (c.ramEnd ≠ 0xFFFFFFFF → c.ramEnd + 1 ≠ c.flashBase → isValid c (c.ramEnd + 1) = false) ∧
    (c.ramBase ≠ 0 → c.ramBase - 1 ≠ c.flashEnd → isValid c (c.ramBase - 1) = false)

/-- JUMP_TO_ADDRESS with a valid address (R172, R173): the valid reply, then the transfer to
`(addr + 1) mod 2^32` (the spec's decision D17), and the engine is in `HANDED_OFF`; nothing else changes. -/
def Obligations.ValidJumpTransfersControl : Prop :=
  ∀ (s : State) (addr : W32) (x : List Byte), isValid s.cfg addr = true →
    ∃ t, exec (.jumpToAddress addr x) s = .next t ∧
      Added s t
        [.tx [0xCD, 0x01, 0x01], .xfer (BitVec.ofNat 32 ((addr.toNat + 1) % 2 ^ 32))] ∧
      t.phase = .handedOff ∧ t.handedOff = true ∧ t.cfg = s.cfg ∧ t.fb = s.fb ∧
      t.crcPass = s.crcPass ∧ t.wi = s.wi ∧ t.u = s.u ∧ t.e = s.e ∧ t.w = s.w ∧ t.p = s.p ∧
      t.r = s.r ∧ t.l = s.l ∧ t.crcAcc = s.crcAcc ∧ SameDevice s t ∧ UsedAnswers 0 s t

/-- JUMP_TO_ADDRESS with an invalid address (R172): only the reply, no transfer (source scenario 4). -/
def Obligations.InvalidJumpIsReported : Prop :=
  ∀ (s : State) (addr : W32) (x : List Byte), isValid s.cfg addr = false →
    ∃ t, exec (.jumpToAddress addr x) s = .next t ∧
      Added s t [.tx [0xCD, 0x01, 0x00]] ∧ OnlyReplied s t

/-- After the transfer the engine never does anything again (R174; the spec's decision D20): any number of
steps leaves the state as it is, so no event is made.  That the device and the transport stay as they are too,
whatever the code at the target does, is the model's choice (log entry 38). -/
def Obligations.HandedOffIsAbsorbing : Prop :=
  ∀ (k : Nat) (s : State), s.phase = .handedOff → runSteps k s = .next s

/-! ### Erase -/

/-- ERASE_FLASH with a count above the page limit, whatever the index, or with an index that is neither a
page nor the sentinel (R192, R193; the spec's decision D14): the failed status, no driver call. -/
def Obligations.BadEraseRangeIsRefused : Prop :=
  ∀ (s : State) (pidx pcnt : Byte) (x : List Byte),
    s.cfg.maxPage < pcnt.toNat ∨ (pidx ≠ 0xFF ∧ s.cfg.maxPage ≤ pidx.toNat) →
    ∃ t, exec (.eraseFlash pidx pcnt x) s = .next t ∧
      Added s t [.tx [0xCD, 0x01, 0x00]] ∧ OnlyReplied s t

/-- ERASE_FLASH on a non-empty range, the unlock answering `ok` (R191, R194, R195, R196): one erase request,
of all pages for the sentinel and else clamped to the page limit, the lock after it, and a status that is
`ok` exactly when the erase and the lock answered `ok`.  No byte outside the named pages changes; where a
page lies is general knowledge of the spec's (G12; PRESUMED, log entry 14).  That the engine still locks and
replies whatever the pages hold is the model's choice (R303, G13; log entry 39). -/
def Obligations.EraseMakesOneRequest : Prop :=
  ∀ (s : State) (pidx pcnt : Byte) (x : List Byte),
    pcnt.toNat ≤ s.cfg.maxPage → pidx = 0xFF ∨ (pidx.toNat < s.cfg.maxPage ∧ pcnt ≠ 0) →
    s.answerAt 0 = .ok →
    ∃ t, exec (.eraseFlash pidx pcnt x) s = .next t ∧
      Added s t
        [.flUnlock .ok,
          .flErase (if pidx = 0xFF then .mass
            else .pages pidx.toNat (min pcnt.toNat (s.cfg.maxPage - pidx.toNat))) (s.answerAt 1),
          .flLock (s.answerAt 2),
          .tx [0xCD, 0x01, if s.answerAt 1 = .ok ∧ s.answerAt 2 = .ok then 0x01 else 0x00]] ∧
      FlashFrame 3 s t ∧ t.wi = s.wi ∧ t.w = s.w ∧ t.u = .ok ∧ t.e = s.answerAt 1 ∧
      t.l = s.answerAt 2 ∧ (s.answerAt 2 = .ok → t.flLocked = true) ∧
      ∀ a, ¬ ((eraseRequest s.cfg pidx pcnt).base s.cfg ≤ a ∧
          a < (eraseRequest s.cfg pidx pcnt).base s.cfg + (eraseRequest s.cfg pidx pcnt).size s.cfg) →
        t.mem.read a = s.mem.read a

/-- ERASE_FLASH whose unlock fails, or whose range is empty (R191, R196, R197; the spec's decisions D15,
D16): the bracket's two calls and no erase request; memory is unchanged. -/
def Obligations.EraseWithoutRequest : Prop :=
  ∀ (s : State) (pidx pcnt : Byte) (x : List Byte),
    pcnt.toNat ≤ s.cfg.maxPage → pidx = 0xFF ∨ pidx.toNat < s.cfg.maxPage →
    s.answerAt 0 = .fail ∨ (pidx ≠ 0xFF ∧ pcnt = 0) →
    ∃ t, exec (.eraseFlash pidx pcnt x) s = .next t ∧
      Added s t
        [.flUnlock (s.answerAt 0), .flLock (s.answerAt 1),
          .tx [0xCD, 0x01, if s.answerAt 0 = .ok ∧ s.answerAt 1 = .ok then 0x01 else 0x00]] ∧
      FlashFrame 2 s t ∧ t.wi = s.wi ∧ t.w = s.w ∧ t.u = s.answerAt 0 ∧ t.e = s.answerAt 0 ∧
      t.l = s.answerAt 1 ∧ (s.answerAt 1 = .ok → t.flLocked = true) ∧
      ∀ a, t.mem.read a = s.mem.read a

/-- The effect of an erase on memory, page by page (R67; the spec's decision D27): where the request
answered `ok`, every byte of every named page reads `ERASED_BYTE`; whatever it answered, a byte of no named
page reads as before.  That page `p` begins at `FLASH_BASE + p * PAGE_SIZE` is general knowledge of the
spec's (G12; PRESUMED, log entry 14). -/
def Obligations.EraseActsOnNamedPagesOnly : Prop :=
  ∀ (s t : State) (pidx pcnt : Byte) (x : List Byte),
    pcnt.toNat ≤ s.cfg.maxPage → pidx = 0xFF ∨ (pidx.toNat < s.cfg.maxPage ∧ pcnt ≠ 0) →
    s.answerAt 0 = .ok → exec (.eraseFlash pidx pcnt x) s = .next t →
    (s.answerAt 1 = .ok → ∀ p a, (eraseRequest s.cfg pidx pcnt).names s.cfg p → inPage s.cfg p a →
        t.mem.read a = some s.cfg.erasedByte) ∧
      ∀ a, (∀ p, (eraseRequest s.cfg pidx pcnt).names s.cfg p → ¬ inPage s.cfg p a) →
        t.mem.read a = s.mem.read a

/-! ### Write -/

/-- MEMORY_WRITE with an invalid first address (R212): the failed status, no driver call. -/
def Obligations.WriteToInvalidAddressIsRefused : Prop :=
  ∀ (s : State) (addr : W32) (d x : List Byte), isValid s.cfg addr = false →
    ∃ t, exec (.memoryWrite addr d x) s = .next t ∧
      Added s t [.tx [0xCD, 0x01, 0x00]] ∧ OnlyReplied s t

/-- MEMORY_WRITE whose unlock and program calls all answer `ok` (R66, R211, R213, R215; the spec's decisions
D17, D27): byte `i` is programmed at `(addr + i) mod 2^32`, in order, each reads back afterwards, no other
byte changes, and the status is that of the lock.  That the engine runs on whatever the bytes written over
held is the model's choice (R303; log entry 39). -/
def Obligations.WriteProgramsEveryByteInOrder : Prop :=
  ∀ (s : State) (addr : W32) (d x : List Byte), d.length ≤ 255 → isValid s.cfg addr = true →
    (∀ k, k ≤ d.length → s.answerAt k = .ok) →
    ∃ t, exec (.memoryWrite addr d x) s = .next t ∧
      Added s t
        ([.flUnlock .ok] ++
          (List.range d.length).map (fun i =>
            .flProg (BitVec.ofNat 32 ((addr.toNat + i) % 2 ^ 32)) (d.getD i 0) .ok) ++
          [.flLock (s.answerAt (d.length + 1)),
            .tx [0xCD, 0x01, if s.answerAt (d.length + 1) = .ok then 0x01 else 0x00]]) ∧
      FlashFrame (d.length + 2) s t ∧ t.e = s.e ∧ t.u = .ok ∧ t.w = .ok ∧ t.wi = d.length ∧
      t.l = s.answerAt (d.length + 1) ∧ (s.answerAt (d.length + 1) = .ok → t.flLocked = true) ∧
      (∀ i, i < d.length → t.mem.read ((addr.toNat + i) % 2 ^ 32) = some (d.getD i 0)) ∧
      ∀ a, (∀ i, i < d.length → a ≠ (addr.toNat + i) % 2 ^ 32) → t.mem.read a = s.mem.read a

/-- MEMORY_WRITE whose program call for byte `j` is the first to fail (R214, R215; the spec's decision D27):
no later byte is programmed, the lock is called, the status is the failed one, the bytes before `j` are in
memory, and no byte but those up to `j` changes.  That the engine runs on whatever the bytes written over held
is the model's choice (R303; log entry 39). -/
def Obligations.WriteStopsAtTheFirstFailure : Prop :=
  ∀ (s : State) (addr : W32) (d x : List Byte) (j : Nat), d.length ≤ 255 →
    isValid s.cfg addr = true → j < d.length → (∀ k, k ≤ j → s.answerAt k = .ok) →
    s.answerAt (j + 1) = .fail →
    ∃ t, exec (.memoryWrite addr d x) s = .next t ∧
      Added s t
        ([.flUnlock .ok] ++
          (List.range j).map (fun i =>
            .flProg (BitVec.ofNat 32 ((addr.toNat + i) % 2 ^ 32)) (d.getD i 0) .ok) ++
          [.flProg (BitVec.ofNat 32 ((addr.toNat + j) % 2 ^ 32)) (d.getD j 0) .fail,
            .flLock (s.answerAt (j + 2)), .tx [0xCD, 0x01, 0x00]]) ∧
      FlashFrame (j + 3) s t ∧ t.e = s.e ∧ t.u = .ok ∧ t.w = .fail ∧ t.wi = j ∧
      t.l = s.answerAt (j + 2) ∧ (s.answerAt (j + 2) = .ok → t.flLocked = true) ∧
      (∀ i, i < j → t.mem.read ((addr.toNat + i) % 2 ^ 32) = some (d.getD i 0)) ∧
      ∀ a, (∀ i, i ≤ j → a ≠ (addr.toNat + i) % 2 ^ 32) → t.mem.read a = s.mem.read a

/-- MEMORY_WRITE whose unlock fails (R213, R215; the spec's decision D16): no byte is programmed, the lock is
called, the status is the failed one, and memory is unchanged. -/
def Obligations.WriteWithoutUnlockProgramsNothing : Prop :=
  ∀ (s : State) (addr : W32) (d x : List Byte), isValid s.cfg addr = true → s.answerAt 0 = .fail →
    ∃ t, exec (.memoryWrite addr d x) s = .next t ∧
      Added s t
        [.flUnlock .fail, .flLock (s.answerAt 1), .tx [0xCD, 0x01, 0x00]] ∧
      FlashFrame 2 s t ∧ t.e = s.e ∧ t.u = .fail ∧ t.w = .ok ∧ t.wi = 0 ∧ t.l = s.answerAt 1 ∧
      (s.answerAt 1 = .ok → t.flLocked = true) ∧ ∀ a, t.mem.read a = s.mem.read a

/-! ### Protection level -/

/-- A request for level 2, or for any value above it, is refused with no driver call, whatever the other
payload bytes (R233; for 3 to 255 the spec's decision D18). -/
def Obligations.LevelTwoRequestIsRefused : Prop :=
  ∀ (s : State) (lvl : Byte) (x : List Byte), 2 ≤ lvl.toNat →
    ∃ t, exec (.disableRwProtect lvl x) s = .next t ∧
      Added s t [.tx [0xCD, 0x01, 0x00]] ∧ OnlyReplied s t

/-- A request for level 0 or 1 whose unlock, program and reload answer `ok` (R68, R231, R232, R234, R235; the
spec's decisions D12, D27): the four calls in order with the level's encoding, the level is the requested
one, and the status is that of the lock.  That memory is untouched when the level falls, which R236 leaves
to the device, is the model's choice (log entry 37). -/
def Obligations.LevelChangeTakesEffect : Prop :=
  ∀ (s : State) (lvl : Byte) (x : List Byte), lvl = 0 ∨ lvl = 1 →
    s.answerAt 0 = .ok → s.answerAt 1 = .ok → s.answerAt 2 = .ok →
    ∃ t, exec (.disableRwProtect lvl x) s = .next t ∧
      Added s t
        [.obUnlock .ok, .obProg (if lvl = 0 then s.cfg.ropEnc0 else s.cfg.ropEnc1) .ok,
          .obReload .ok, .obLock (s.answerAt 3),
          .tx [0xCD, 0x01, if s.answerAt 3 = .ok then 0x01 else 0x00]] ∧
      t.rop = (if lvl = 0 then .level0 else .level1) ∧
      OptionFrame 4 s t ∧ t.u = .ok ∧ t.p = .ok ∧ t.r = .ok ∧ t.l = s.answerAt 3 ∧
      (s.answerAt 3 = .ok → t.obLocked = true)

/-- A request for level 0 or 1 with a failing step (R68, R234, R235; the spec's decisions D18, D27): the
steps that depend on it are skipped, the lock is called, the status is the failed one, and the level is the
old one unless the program was called, when it is the old or the requested one.  That memory is untouched is
the model's choice where the level falls (R236; log entry 37). -/
def Obligations.FailedLevelChangeSkipsAndLocks : Prop :=
  ∀ (s : State) (lvl : Byte) (x : List Byte), lvl = 0 ∨ lvl = 1 →
    s.answerAt 0 = .fail ∨ s.answerAt 1 = .fail ∨ s.answerAt 2 = .fail →
    ∃ t, exec (.disableRwProtect lvl x) s = .next t ∧
      if s.answerAt 0 = .fail then
        Added s t [.obUnlock .fail, .obLock (s.answerAt 1), .tx [0xCD, 0x01, 0x00]] ∧
          t.rop = s.rop ∧ OptionFrame 2 s t ∧ t.u = .fail ∧ t.p = .fail ∧ t.r = .fail ∧
          t.l = s.answerAt 1 ∧ (s.answerAt 1 = .ok → t.obLocked = true)
      else if s.answerAt 1 = .fail then
        Added s t
            [.obUnlock .ok, .obProg (if lvl = 0 then s.cfg.ropEnc0 else s.cfg.ropEnc1) .fail,
              .obLock (s.answerAt 2), .tx [0xCD, 0x01, 0x00]] ∧
          (t.rop = s.rop ∨ t.rop = if lvl = 0 then .level0 else .level1) ∧
          OptionFrame 3 s t ∧ t.u = .ok ∧ t.p = .fail ∧ t.r = .fail ∧ t.l = s.answerAt 2 ∧
          (s.answerAt 2 = .ok → t.obLocked = true)
      else
        Added s t
            [.obUnlock .ok, .obProg (if lvl = 0 then s.cfg.ropEnc0 else s.cfg.ropEnc1) .ok,
              .obReload .fail, .obLock (s.answerAt 3), .tx [0xCD, 0x01, 0x00]] ∧
          (t.rop = s.rop ∨ t.rop = if lvl = 0 then .level0 else .level1) ∧
          OptionFrame 4 s t ∧ t.u = .ok ∧ t.p = .ok ∧ t.r = .fail ∧ t.l = s.answerAt 3 ∧
          (s.answerAt 3 = .ok → t.obLocked = true)

/-! ### The whole machine -/

/-- The invariant holds at reset, and no bracket is open.  The values of the configuration, the buffer and
the level at reset are the model's choice (log entries 1, 9, 10). -/
def Obligations.ResetMeetsTheInvariant : Prop :=
  Inv State.reset ∧ bracketAfter State.reset.events = .closed

/-- From every state that meets the invariant a step answers a next state, and that state meets it: the
machine never stops and never leaves the six phases' promises (R26, R27, R28, R120, R298).  It rests on the
model's choice that every collaborator call answers (log entry 18): R311 says that one which never answers
leaves the engine stuck.  That the engine runs on after an erase or a write of any flash (R303; log entry 39)
and after a reload of the option bytes (G5; log entry 20) is its choice too. -/
def Obligations.StepNeverStopsAndKeepsTheInvariant : Prop :=
  ∀ (s : State), Inv s → ∃ t, step s = .next t ∧ Inv t

/-- A step never leaves a bracket open (R71, R72, R196, R214, R215, R234): if all brackets of the event
sequence are closed and none was broken, so it is after the step.  Every guarded call thus follows an unlock
of its own kind that answered `ok`, none follows a failed one, and every unlock is followed by its lock
before anything else happens.  A loss of power is no step (log entry 26).  That the engine runs on to the lock
is the model's choice where it erases or writes any flash (R303; log entry 39), where a call never answers
(R311; log entry 18) and where a reload of the option bytes would reset the device (G5; log entry 20). -/
def Obligations.BracketsStayClosed : Prop :=
  ∀ (s t : State), bracketAfter s.events = .closed → step s = .next t →
    bracketAfter t.events = .closed

/-- Every interface call a step makes keeps its contract (R40, R41, R45, R48, R112, R126, R170): a receive
asks for 1 to 255 bytes, only the replies of R112 are transmitted, a checksum is the function's value on 2
to BUF_CAP - 4 bytes, an erase request lies within the page limit, a level's encoding is one of the two, and
control goes only to the address after a valid one. -/
def Obligations.EveryCallKeepsItsContract : Prop :=
  ∀ (s t : State), Inv s → step s = .next t →
    ∃ evs, t.events = s.events ++ evs ∧ ∀ ev, ev ∈ evs → eventOk s.cfg ev

/-- No step sets protection level 2 (R68, R233): it is there afterwards only if it was there before.  That
the level stays as it is in `HANDED_OFF` is the model's choice (R174; log entry 38). -/
def Obligations.NoStepSetsLevelTwo : Prop :=
  ∀ (s t : State), step s = .next t → t.rop = .level2 → s.rop = .level2

/-- No step changes the configuration, and what has been observed stays (R28, R30, R53). -/
def Obligations.ConfigurationStaysAndEventsGrow : Prop :=
  ∀ (s t : State), step s = .next t → t.cfg = s.cfg ∧ ∃ evs, t.events = s.events ++ evs

/-- Before its handler runs, a frame has changed nothing outside the engine (R270): a step in any phase but
`EXEC` makes no driver call, no read of the protection level and no transfer, and leaves memory, the level
and both lock bits alone.  In `HANDED_OFF` the engine makes no call (R174); that the device stays as it is
there too, whatever the code control went to does, is the model's choice (log entry 38). -/
def Obligations.OnlyHandlersTouchTheDevice : Prop :=
  ∀ (s t : State), s.phase ≠ .exec → step s = .next t →
    SameDevice s t ∧ t.answers = s.answers ∧ t.calls = s.calls ∧
      ∃ evs, t.events = s.events ++ evs ∧ ∀ ev, ev ∈ evs → ev.isHandlerCall = false

/-- Only JUMP_TO_ADDRESS with a valid address leaves the protocol (R26, R132, R173). -/
def Obligations.OnlyValidJumpHandsOff : Prop :=
  ∀ (s t : State), s.phase ≠ .handedOff → step s = .next t → t.phase = .handedOff →
    s.phase = .exec ∧ ∃ addr x, s.fetch = .instr (.jumpToAddress addr x) ∧ isValid s.cfg addr = true

/-- Every command sends exactly one reply, after all its driver calls, and makes no receive, no checksum call
and no transfer before it (R70, R127, R132); only JUMP_TO_ADDRESS with a valid address makes one more call
after its reply, the transfer to the address plus 1 (R173; the spec's decision D17).  That the engine runs on
to the reply is the model's choice where it erases or writes any flash (R303; log entry 39), where a call never
answers (R311; log entry 18) and where a reload of the option bytes would reset the device (G5; log
entry 20). -/
def Obligations.OneReplyAfterAllDriverCalls : Prop :=
  ∀ (i : Instr) (s t : State), exec i s = .next t →
    (∃ evs bs, t.events = s.events ++ evs ++ [.tx bs] ∧
        ∀ ev, ev ∈ evs → ev.isTx = false ∧ ev.isFrontEnd = false ∧ ev.isXfer = false) ∨
      ∃ addr x, i = .jumpToAddress addr x ∧ isValid s.cfg addr = true ∧
        ∃ bs, Added s t [.tx bs, .xfer (BitVec.ofNat 32 ((addr.toNat + 1) % 2 ^ 32))]

/-- A command depends on nothing an earlier frame has left in the engine (R29, R155): in two states that
agree on the configuration, the device, its answers and the number of driver calls so far, whatever their
buffers, flags, loop index and accumulator, the same command makes the same calls, sends the same reply and
leaves the same device.  That both runs then see the same free answers, and after a failed call the same
bytes, lock bits and level, is the model's choice: its free values are functions of the number of the call
(log entries 4 to 7). -/
def Obligations.CommandsSeeNoEarlierFrame : Prop :=
  ∀ (i : Instr) (s s' t t' : State), SameForCommands s s' → exec i s = .next t →
    exec i s' = .next t' →
    SameForCommands t t' ∧ t'.phase = t.phase ∧
      ∃ evs, t.events = s.events ++ evs ∧ t'.events = s'.events ++ evs

/-! ### Reset -/

/-- The state right after reset (R55, R291, R292, R293): the engine waits for a length byte, nothing has been
handed off, `crc_pass` is 0, both driver interfaces are locked, nothing has been sent, and the first event
is `rx(1)` (the spec's decision D21). -/
def Obligations.ResetWaitsForALengthByte : Prop :=
  State.reset.phase = .awaitLen ∧ State.reset.handedOff = false ∧ State.reset.crcPass = false ∧
    State.reset.flLocked = true ∧ State.reset.obLocked = true ∧ State.reset.events = [] ∧
    ∃ t r, step State.reset = .next t ∧ t.events = [.rx 1 r]

/-- Any reset (R35, R55, R290, R291; the spec's decisions D21, D22): the configuration, the protection level
and the flash region's bytes stay; `phase`, `handed_off`, `crc_pass` and the lock bits take their reset
values; and with `boot_mode = LaunchApp` no step makes an event.  That such a step also leaves the device and
the transport as they are, whatever the launched application does, is the model's choice (log entry 38). -/
def Obligations.ResetKeepsWhatPersists : Prop :=
  ∀ (mode : BootMode) (s : State),
    (s.resetFrom mode).cfg = s.cfg ∧ (s.resetFrom mode).rop = s.rop ∧
    (∀ a, s.cfg.flashBase.toNat ≤ a → a ≤ s.cfg.flashEnd.toNat →
      (s.resetFrom mode).mem.read a = s.mem.read a) ∧
    (s.resetFrom mode).crcPass = false ∧ (s.resetFrom mode).flLocked = true ∧
    (s.resetFrom mode).obLocked = true ∧
    match mode with
    | .engine => (s.resetFrom mode).phase = .awaitLen ∧ (s.resetFrom mode).handedOff = false
    | .launchApp => (s.resetFrom mode).handedOff = true ∧
        ∀ k, runSteps k (s.resetFrom mode) = .next (s.resetFrom mode)

/-- Any reset of a machine with an admitted configuration and a canonical memory, in whatever state it is,
gives a state that meets the invariant (R55, R290, R293).  The buffer's zeros and the loop index at reset,
which R55 leaves unspecified, are the model's choice (log entry 9). -/
def Obligations.ResetRestoresTheInvariant : Prop :=
  ∀ (mode : BootMode) (s : State), s.cfg.wf = true → s.mem.wf → Inv (s.resetFrom mode)

/-! ### Loss of power -/

/-- Power lost before the first call of a step, or after its last, is a reset between two steps (R285, R290;
the values a reset leaves unspecified are those of log entries 3 and 9).  So the calls of a step, done again
one by one, leave all that the step leaves behind a reset. -/
def Obligations.PowerLossBetweenStepsIsAReset : Prop :=
  ∀ (mode : BootMode) (n : Nat) (inCall : Bool) (s t : State), step s = .next t →
    s.powerLoss mode 0 false = s.resetFrom mode ∧
      (t.events.length ≤ s.events.length + n → s.powerLoss mode n inCall = t.resetFrom mode)

/-- Power lost anywhere inside a step (R285, R55): the configuration stays, both drivers are locked again, the
state meets the invariant, and the level is 2 only if it was 2 before (R68).  What an interrupted call leaves
is the model's choice (log entry 34), and so are the values a reset leaves unspecified (log entry 9) and, in
`HANDED_OFF`, that the level is as it was (R174; log entry 38). -/
def Obligations.PowerLossRestoresTheInvariant : Prop :=
  ∀ (mode : BootMode) (n : Nat) (inCall : Bool) (s : State), s.cfg.wf = true → s.mem.wf →
    Inv (s.powerLoss mode n inCall) ∧ (s.powerLoss mode n inCall).cfg = s.cfg ∧
      (s.powerLoss mode n inCall).flLocked = true ∧ (s.powerLoss mode n inCall).obLocked = true ∧
      ((s.powerLoss mode n inCall).rop = .level2 → s.rop = .level2)

/-- Power lost in MEMORY_WRITE after `j` bytes, all its calls so far having answered `ok` (R63, R66, R214,
R285): in the flash region those bytes are in memory, a byte whose call was under way may be anything, and
every other byte reads as before; the level is the old one.  That the interrupted call touches no other byte
is the model's choice (log entry 34). -/
def Obligations.PowerLossInAWriteKeepsTheBytesWritten : Prop :=
  ∀ (mode : BootMode) (s : State) (addr : W32) (d x : List Byte) (j : Nat) (inCall : Bool),
    s.phase = .exec → s.fetch = .instr (.memoryWrite addr d x) → d.length ≤ 255 →
    isValid s.cfg addr = true → j ≤ d.length → (∀ k, k ≤ j → s.answerAt k = .ok) →
    (s.powerLoss mode (j + 1) inCall).rop = s.rop ∧
      (∀ i, i < j → inFlash s.cfg ((addr.toNat + i) % 2 ^ 32) →
        (s.powerLoss mode (j + 1) inCall).mem.read ((addr.toNat + i) % 2 ^ 32) = some (d.getD i 0)) ∧
      ∀ a, inFlash s.cfg a → (∀ i, i < j → a ≠ (addr.toNat + i) % 2 ^ 32) →
        (inCall = true → j < d.length → a ≠ (addr.toNat + j) % 2 ^ 32) →
        (s.powerLoss mode (j + 1) inCall).mem.read a = s.mem.read a

/-- Power lost anywhere in ERASE_FLASH (R67, R285): a byte of the flash region that lies in no named page
reads as before, and the level is the old one.  Where a page lies is general knowledge of the spec's (G12;
PRESUMED, log entry 14), and that an interrupted call touches no other page is the model's choice (log
entry 34). -/
def Obligations.PowerLossInAnEraseTouchesNamedPagesOnly : Prop :=
  ∀ (mode : BootMode) (s : State) (pidx pcnt : Byte) (x : List Byte) (n : Nat) (inCall : Bool),
    s.phase = .exec → s.fetch = .instr (.eraseFlash pidx pcnt x) →
    (s.powerLoss mode n inCall).rop = s.rop ∧
      ∀ a, inFlash s.cfg a →
        (∀ p, (eraseRequest s.cfg pidx pcnt).names s.cfg p → ¬ inPage s.cfg p a) →
        (s.powerLoss mode n inCall).mem.read a = s.mem.read a

/-- Power lost anywhere in the protection-level change (R68, R285): the level is the old one or the requested
one, and the old one where none was asked for that may be; the flash region reads as before.  What an
interrupted call leaves of the level is the model's choice (log entry 34), and so is that memory is untouched
when the level falls (R236; log entry 37). -/
def Obligations.PowerLossInALevelChangeLeavesOldOrRequested : Prop :=
  ∀ (mode : BootMode) (s : State) (lvl : Byte) (x : List Byte) (n : Nat) (inCall : Bool),
    s.phase = .exec → s.fetch = .instr (.disableRwProtect lvl x) →
    ((s.powerLoss mode n inCall).rop = s.rop ∨
        ∃ k, requestedLevel lvl = some k ∧ (s.powerLoss mode n inCall).rop = k.toLevel) ∧
      ∀ a, inFlash s.cfg a → (s.powerLoss mode n inCall).mem.read a = s.mem.read a
end

