-- ==== Sys2Proof/Laws/Crc.lean ====
section
/-! SUPPORT. The bit steps of the two candidate checksums lose nothing: each is injective.  A checksum that
folds steps which lose neither its state nor the byte sees every flipped bit. -/

namespace Sys2Proof.Machine

theorem crcABit_getLsbD (c : W32) {i : Nat} (_h : i < 32) :
    (crcABit c).getLsbD i =
      ((if i = 31 then false else c.getLsbD (i + 1)) ^^
        (c.getLsbD 0 && (0xEDB88320#32).getLsbD i)) := by
  unfold crcABit
  cases h0 : c.getLsbD 0 <;>
    simp only [Bool.false_eq_true, if_false, if_true, Bool.false_and, Bool.true_and, Bool.xor_false,
      BitVec.getLsbD_xor, BitVec.getLsbD_ushiftRight, show 1 + i = i + 1 by omega] <;>
    by_cases h31 : i = 31 <;> simp [h31]

theorem crcBBit_getLsbD (c : W32) {i : Nat} (h : i < 32) :
    (crcBBit c).getLsbD i =
      ((if i = 0 then false else c.getLsbD (i - 1)) ^^
        (c.getLsbD 31 && (0x04C11DB7#32).getLsbD i)) := by
  have hz : ∀ j, j ≠ 0 → decide (j < 1) = false := fun j hj => by simp; omega
  unfold crcBBit
  cases h0 : c.getLsbD 31 <;>
    simp only [Bool.false_eq_true, if_false, if_true, Bool.false_and, Bool.true_and, Bool.xor_false,
      BitVec.getLsbD_xor, BitVec.getLsbD_shiftLeft] <;>
    by_cases h1 : i = 0 <;>
    simp only [h1, h, if_true, if_false, decide_true, Bool.true_and, hz, ne_eq, not_false_eq_true,
      show decide (0 < 1) = true from rfl, Bool.not_true, Bool.and_false, Bool.false_and,
      Bool.not_false]

/-- The top bit of the result is the bit shifted out, so the step can be undone. -/
theorem crcABit_injective : Function.Injective crcABit := by
  intro c c' h
  have e : ∀ i, (crcABit c).getLsbD i = (crcABit c').getLsbD i := fun i => by rw [h]
  have z : c.getLsbD 0 = c'.getLsbD 0 := by
    have := e 31
    rw [crcABit_getLsbD c (by omega), crcABit_getLsbD c' (by omega)] at this
    simpa using this
  apply BitVec.eq_of_getLsbD_eq
  intro i hi
  cases i with
  | zero => exact z
  | succ i =>
    have := e i
    rw [crcABit_getLsbD c (by omega), crcABit_getLsbD c' (by omega), z] at this
    have h31 : i ≠ 31 := by omega
    simpa [h31] using this

/-- The bottom bit of the result is the bit shifted out, so the step can be undone. -/
theorem crcBBit_injective : Function.Injective crcBBit := by
  intro c c' h
  have e : ∀ i, (crcBBit c).getLsbD i = (crcBBit c').getLsbD i := fun i => by rw [h]
  have z : c.getLsbD 31 = c'.getLsbD 31 := by
    have := e 0
    rw [crcBBit_getLsbD c (by omega), crcBBit_getLsbD c' (by omega)] at this
    simpa using this
  apply BitVec.eq_of_getLsbD_eq
  intro i hi
  by_cases h31 : i = 31
  · subst h31; exact z
  · have := e (i + 1)
    rw [crcBBit_getLsbD c (by omega), crcBBit_getLsbD c' (by omega), z] at this
    simpa using this

theorem repeatBit_injective {f : W32 → W32} (h : Function.Injective f) (k : Nat) :
    Function.Injective (repeatBit f k) := by
  induction k with
  | zero => exact fun _ _ e => e
  | succ k ih => exact fun _ _ e => h (ih e)

theorem setWidth_byte_injective : Function.Injective (fun b : Byte => b.setWidth 32) := by
  intro b b' h
  have e := congrArg BitVec.toNat h
  simp at e
  have := b.isLt
  have := b'.isLt
  exact BitVec.eq_of_toNat_eq (by omega)

/-- A fold of steps that lose nothing of the state loses nothing of its start. -/
theorem foldl_start_injective {f : W32 → Byte → W32} (h : ∀ b, Function.Injective (fun c => f c b))
    (bs : List Byte) : Function.Injective (fun c => bs.foldl f c) := by
  induction bs with
  | nil => exact fun _ _ e => e
  | cons b bs ih => exact fun _ _ e => h b (ih e)

/-- A fold of steps that lose neither the state nor the byte sees a flipped bit (R11, property (b)). -/
theorem foldl_flipBit_ne {f : W32 → Byte → W32} (h1 : ∀ b, Function.Injective (fun c => f c b))
    (h2 : ∀ c, Function.Injective (f c)) {bs : List Byte} {i k : Nat} (hi : i < bs.length)
    (hk : k < 8) (c : W32) : (flipBit bs i k).foldl f c ≠ bs.foldl f c := by
  induction bs generalizing i c with
  | nil => simp at hi
  | cons b bs ih =>
    cases i with
    | zero =>
      intro e
      have x := h2 c (foldl_start_injective h1 bs e)
      simpa [hk] using congrArg (fun v => BitVec.getLsbD v k) x
    | succ i => exact ih (by simpa using hi) _

end Sys2Proof.Machine
end

