-- ==== Sys2Proof/Laws/Decode.lean ====
section
/-! SUPPORT. Small facts of the decoder and the encoder: byte order, the code map, the lengths of
payloads and frames, and what a frame's fields are. -/

namespace Sys2Proof

/-! ### Byte order -/

/-- Assembling the four bytes of a word gives the word (R17). -/
theorem le32Of_le32Bytes (v : W32) :
    le32Of (v.extractLsb' 0 8) (v.extractLsb' 8 8) (v.extractLsb' 16 8) (v.extractLsb' 24 8) = v := by
  apply BitVec.eq_of_getLsbD_eq
  intro i hi
  simp only [le32Of, BitVec.getLsbD_append, BitVec.getLsbD_extractLsb']
  by_cases h1 : i < 8
  · simp [h1]
  by_cases h2 : i - 8 < 8
  · simp [h1, h2]; congr 1; omega
  by_cases h3 : i - 8 - 8 < 8
  · simp [h1, h2, h3]; congr 1; omega
  · have : i - 8 - 8 - 8 < 8 := by omega
    simp [h1, h2, h3, this]; congr 1; omega

/-- The four bytes of an assembled word are the bytes it was assembled from (R17). -/
theorem le32Bytes_le32Of (b0 b1 b2 b3 : Byte) : le32Bytes (le32Of b0 b1 b2 b3) = [b0, b1, b2, b3] := by
  have h : ∀ (k : Nat) (b : Byte), (∀ i, i < 8 →
      (le32Of b0 b1 b2 b3).getLsbD (k + i) = b.getLsbD i) →
      (le32Of b0 b1 b2 b3).extractLsb' k 8 = b := by
    intro k b hb
    apply BitVec.eq_of_getLsbD_eq
    intro i hi
    simp [hi, hb i hi]
  simp only [le32Bytes, List.cons.injEq, and_true]
  refine ⟨h 0 b0 ?_, h 8 b1 ?_, h 16 b2 ?_, h 24 b3 ?_⟩ <;>
    (intro i hi; simp only [le32Of, BitVec.getLsbD_append])
  · simp [hi]
  · have : ¬ 8 + i < 8 := by omega
    simp [hi, this]
  · have h1 : ¬ 16 + i < 8 := by omega
    have h2 : ¬ 16 + i - 8 < 8 := by omega
    have h3 : 16 + i - 8 - 8 = i := by omega
    simp [hi, h1, h2, h3]
  · have h1 : ¬ 24 + i < 8 := by omega
    have h2 : ¬ 24 + i - 8 < 8 := by omega
    have h3 : ¬ 24 + i - 8 - 8 < 8 := by omega
    have h4 : 24 + i - 8 - 8 - 8 = i := by omega
    simp [h1, h2, h3, h4]

@[simp] theorem le32Bytes_length (v : W32) : (le32Bytes v).length = 4 := rfl

/-! ### Lengths -/

/-- The payload's bytes are as many as WellFormed counts. -/
theorem Instr.payload_length (i : Instr) : i.payload.length = i.payloadLen := by
  cases i <;> simp [Instr.payload, Instr.payloadLen] <;> omega

@[simp] theorem coveredBytes_length (code : Byte) (pl : List Byte) :
    (coveredBytes code pl).length = pl.length + 2 := by simp [coveredBytes]

@[simp] theorem frameBytes_length (crc : List Byte → W32) (code : Byte) (pl : List Byte) :
    (frameBytes crc code pl).length = pl.length + 6 := by simp [frameBytes]

/-- Every command's code is in the Supported Command Set (R10). -/
theorem Instr.code_mem_cmdSet (i : Instr) : i.code ∈ cmdSet := by
  cases i <;> simp [Instr.code, cmdSet]

/-- The payload of every well-formed command is long enough for its code (R101). -/
theorem Instr.payloadShapeOk {cap : Nat} {i : Instr} (h : i.wf cap = true) :
    Sys2Proof.payloadShapeOk i.code i.payload = true := by
  cases i with
  | memoryWrite a d x =>
    simp [Instr.wf, Instr.lengthByteFits, Instr.payloadLen] at h
    have : d.length % 256 = d.length := Nat.mod_eq_of_lt (by omega)
    simp [Sys2Proof.payloadShapeOk, Instr.code, Instr.payload, need, le32Bytes, this]
    omega
  | _ =>
    simp [Sys2Proof.payloadShapeOk, Instr.code, Instr.payload, need]

/-! ### Fields of a frame -/

/-- Reading a frame that was built gives its code, its payload and the checksum of its covered region
(R90, R94, R115). -/
theorem readFrame_frameBytes (crc : List Byte → W32) (code : Byte) (pl rest : List Byte)
    (h : pl.length + 5 ≤ 255) :
    readFrame (frameBytes crc code pl ++ rest) =
      .ok { n := BitVec.ofNat 8 (1 + pl.length + 4), code := code, payload := pl,
            declaredCrc := crc (coveredBytes code pl) } := by
  have hn : (BitVec.ofNat 8 (1 + pl.length + 4)).toNat = pl.length + 5 := by
    simp; omega
  have hb : frameBytes crc code pl ++ rest =
      BitVec.ofNat 8 (1 + pl.length + 4) ::
        (code :: (pl ++ (le32Bytes (crc (coveredBytes code pl)) ++ rest))) := by
    simp [frameBytes, coveredBytes]
  have hd : ∀ k, (code :: (pl ++ (le32Bytes (crc (coveredBytes code pl)) ++ rest))).getD
      (pl.length + 1 + k) 0 = (le32Bytes (crc (coveredBytes code pl)) ++ rest).getD k 0 := by
    intro k
    have e : pl.length + 1 + k = (pl.length + k) + 1 := by omega
    rw [e, List.getD_cons_succ, List.getD_eq_getElem?_getD,
      List.getElem?_append_right (by omega), Nat.add_sub_cancel_left, ← List.getD_eq_getElem?_getD]
  have hcrc : declaredCrcOf (code :: (pl ++ (le32Bytes (crc (coveredBytes code pl)) ++ rest)))
      (pl.length + 5) = crc (coveredBytes code pl) := by
    have e0 := hd 0; have e1 := hd 1; have e2 := hd 2; have e3 := hd 3
    simp only [declaredCrcOf]
    rw [show pl.length + 5 - 4 = pl.length + 1 + 0 by omega,
      show pl.length + 5 - 3 = pl.length + 1 + 1 by omega,
      show pl.length + 5 - 2 = pl.length + 1 + 2 by omega,
      show pl.length + 5 - 1 = pl.length + 1 + 3 by omega, e0, e1, e2, e3]
    exact le32Of_le32Bytes _
  rw [hb, readFrame, hn, if_neg (by omega), if_neg (by simp [le32Bytes])]
  congr 1
  simp [hcrc]

/-! ### Operand assembly by code (R96 to R99) -/

@[simp] theorem decodeFields_getVersion (pl : List Byte) :
    decodeFields 0x10#8 pl = .instr (.getVersion pl) := rfl

@[simp] theorem decodeFields_getHelp (pl : List Byte) :
    decodeFields 0x11#8 pl = .instr (.getHelp pl) := rfl

@[simp] theorem decodeFields_getChipId (pl : List Byte) :
    decodeFields 0x12#8 pl = .instr (.getChipId pl) := rfl

@[simp] theorem decodeFields_getProtectionStatus (pl : List Byte) :
    decodeFields 0x13#8 pl = .instr (.getProtectionStatus pl) := rfl

@[simp] theorem decodeFields_jumpToAddress (a0 a1 a2 a3 : Byte) (x : List Byte) :
    decodeFields 0x14#8 (a0 :: a1 :: a2 :: a3 :: x) = .instr (.jumpToAddress (le32Of a0 a1 a2 a3) x) :=
  rfl

@[simp] theorem decodeFields_eraseFlash (p c : Byte) (x : List Byte) :
    decodeFields 0x15#8 (p :: c :: x) = .instr (.eraseFlash p c x) := rfl

@[simp] theorem decodeFields_memoryWrite (a0 a1 a2 a3 len : Byte) (rest : List Byte) :
    decodeFields 0x16#8 (a0 :: a1 :: a2 :: a3 :: len :: rest) =
      if rest.length < len.toNat then .rejected (.payloadTooShort 0x16)
      else .instr (.memoryWrite (le32Of a0 a1 a2 a3) (rest.take len.toNat) (rest.drop len.toNat)) :=
  rfl

@[simp] theorem decodeFields_enableRwProtect (pl : List Byte) :
    decodeFields 0x17#8 pl = .instr (.enableRwProtect pl) := rfl

@[simp] theorem decodeFields_memoryRead (pl : List Byte) :
    decodeFields 0x18#8 pl = .instr (.memoryRead pl) := rfl

@[simp] theorem decodeFields_getPageProtectionStatus (pl : List Byte) :
    decodeFields 0x19#8 pl = .instr (.getPageProtectionStatus pl) := rfl

@[simp] theorem decodeFields_readOtp (pl : List Byte) :
    decodeFields 0x20#8 pl = .instr (.readOtp pl) := rfl

@[simp] theorem decodeFields_disableRwProtect (l : Byte) (x : List Byte) :
    decodeFields 0x21#8 (l :: x) = .instr (.disableRwProtect l x) := rfl

end Sys2Proof
end

