-- ==== Sys2Proof/Laws/Memory.lean ====
section
/-! SUPPORT. What reading says after each memory operation, and that every operation keeps the canonical
form. -/

namespace Sys2Proof.Machine

theorem Memory.read_append (m n : Memory) (a : Nat) :
    Memory.read (m ++ n) a = (Memory.read m a).or (Memory.read n a) := by
  induction m with
  | nil => simp [Memory.read]
  | cons c m ih =>
    by_cases h : c.1 = a <;> simp [Memory.read, h, ih]

theorem Memory.read_filter (m : Memory) (keep : Nat → Bool) (a : Nat) :
    Memory.read (m.filter (fun c => keep c.1)) a = if keep a then Memory.read m a else none := by
  induction m with
  | nil => simp [Memory.read]
  | cons c m ih =>
    by_cases hk : keep c.1 = true <;> by_cases ha : c.1 = a <;> subst_vars <;>
      simp_all [Memory.read]

theorem Memory.read_range (base len : Nat) (f : Nat → Byte) (a : Nat) :
    Memory.read ((List.range' base len).map (fun k => (k, f k))) a =
      if base ≤ a ∧ a < base + len then some (f a) else none := by
  induction len generalizing base with
  | zero => simp [Memory.read]
  | succ n ih =>
    by_cases h : base = a
    · subst h; simp [List.range'_succ, Memory.read]
    · simp only [List.range'_succ, List.map_cons, Memory.read, h, if_false, ih]
      by_cases h2 : base + 1 ≤ a ∧ a < base + 1 + n
      · rw [if_pos h2, if_pos (by omega)]
      · rw [if_neg h2, if_neg (by omega)]

/-- A fill gives its range the new bytes and leaves every other address alone. -/
theorem Memory.read_fill (m : Memory) (base len : Nat) (f : Nat → Byte) (a : Nat) :
    (m.fill base len f).read a =
      if base ≤ a ∧ a < base + len then some (f a) else m.read a := by
  have h1 := Memory.read_filter m (fun k => decide (k < base)) a
  have h2 := Memory.read_filter m (fun k => decide (base + len ≤ k)) a
  simp only [Memory.fill, Memory.read_append, Memory.read_range, h1, h2]
  by_cases hb : a < base
  · have : ¬ base ≤ a := by omega
    have : ¬ base + len ≤ a := by omega
    cases hm : m.read a <;> simp [*]
  · by_cases he : a < base + len
    · have : base ≤ a := by omega
      simp [*]
    · have : base + len ≤ a := by omega
      simp [*]

/-- A write is read back at its address and nowhere else. -/
theorem Memory.read_write (m : Memory) (a : W32) (v : Byte) (b : Nat) :
    (m.write a v).read b = if b = a.toNat then some v else m.read b := by
  rw [Memory.write, Memory.read_fill]
  by_cases h : b = a.toNat
  · rw [if_pos (by omega), if_pos h]
  · rw [if_neg (by omega), if_neg h]

theorem Memory.read_fillClipped (m : Memory) (base len : Nat) (f : Nat → Byte) (a : Nat) :
    (m.fillClipped base len f).read a =
      if base ≤ a ∧ a < base + len ∧ a < addressLimit then some (f a) else m.read a := by
  rw [Memory.fillClipped, Memory.read_fill]
  by_cases h : base ≤ a ∧ a < base + len ∧ a < addressLimit
  · rw [if_pos h, if_pos (by omega)]
  · rw [if_neg h, if_neg (by omega)]

theorem Memory.read_keepRange (m : Memory) (lo hi a : Nat) :
    (m.keepRange lo hi).read a = if lo ≤ a ∧ a ≤ hi then m.read a else none := by
  have h := Memory.read_filter m (fun k => decide (lo ≤ k) && decide (k ≤ hi)) a
  rw [Memory.keepRange, h]
  by_cases h : lo ≤ a ∧ a ≤ hi
  · simp [h]
  · rw [if_neg h, if_neg (by simpa using h)]

/-- A fill inside the address space keeps the canonical form. -/
theorem Memory.fill_wf {m : Memory} (h : m.wf) (base len : Nat) (f : Nat → Byte)
    (hl : base + len ≤ addressLimit ∨ len = 0) : (m.fill base len f).wf := by
  obtain ⟨hp, hb⟩ := h
  refine ⟨?_, ?_⟩
  · rw [Memory.fill, List.pairwise_append]
    refine ⟨hp.filter _, ?_, ?_⟩
    · rw [List.pairwise_append]
      refine ⟨?_, hp.filter _, ?_⟩
      · rw [List.pairwise_map]; exact List.pairwise_lt_range'
      · intro x hx y hy
        simp at hx hy
        obtain ⟨k, hk, rfl⟩ := hx
        show k < y.1
        omega
    · intro x hx y hy
      simp only [List.mem_filter, decide_eq_true_eq] at hx
      simp only [List.mem_append, List.mem_map, List.mem_range'_1, List.mem_filter,
        decide_eq_true_eq] at hy
      obtain ⟨k, hk, rfl⟩ | hy := hy
      · show x.1 < k
        omega
      · omega
  · intro c hc
    simp only [Memory.fill, List.mem_append, List.mem_map, List.mem_range'_1, List.mem_filter] at hc
    obtain hc | ⟨k, hk, rfl⟩ | hc := hc
    · exact hb c hc.1
    · show k < addressLimit
      omega
    · exact hb c hc.1

theorem Memory.write_wf {m : Memory} (h : m.wf) (a : W32) (v : Byte) : (m.write a v).wf := by
  refine Memory.fill_wf h _ _ _ (.inl ?_)
  have := a.isLt
  simp only [addressLimit]
  omega

theorem Memory.fillClipped_wf {m : Memory} (h : m.wf) (base len : Nat) (f : Nat → Byte) :
    (m.fillClipped base len f).wf := Memory.fill_wf h _ _ _ (by omega)

theorem Memory.keepRange_wf {m : Memory} (h : m.wf) (lo hi : Nat) : (m.keepRange lo hi).wf :=
  ⟨h.1.filter _, fun c hc => h.2 c (List.mem_of_mem_filter hc)⟩

end Sys2Proof.Machine
end

