-- ==== Sys2Proof/Laws/State.lean ====
section
/-! SUPPORT. One lemma per field per update, for every primitive operation: each says what the operation
makes of one field of the state, so that no later proof unfolds a record update. -/

namespace Sys2Proof.Machine

/-! ### emit -/

@[simp] theorem emit_cfg (ev : Event) (s : State) : (emit ev s).cfg = s.cfg := rfl
@[simp] theorem emit_phase (ev : Event) (s : State) : (emit ev s).phase = s.phase := rfl
@[simp] theorem emit_handedOff (ev : Event) (s : State) : (emit ev s).handedOff = s.handedOff := rfl
@[simp] theorem emit_fb (ev : Event) (s : State) : (emit ev s).fb = s.fb := rfl
@[simp] theorem emit_crcPass (ev : Event) (s : State) : (emit ev s).crcPass = s.crcPass := rfl
@[simp] theorem emit_wi (ev : Event) (s : State) : (emit ev s).wi = s.wi := rfl
@[simp] theorem emit_u (ev : Event) (s : State) : (emit ev s).u = s.u := rfl
@[simp] theorem emit_e (ev : Event) (s : State) : (emit ev s).e = s.e := rfl
@[simp] theorem emit_w (ev : Event) (s : State) : (emit ev s).w = s.w := rfl
@[simp] theorem emit_p (ev : Event) (s : State) : (emit ev s).p = s.p := rfl
@[simp] theorem emit_r (ev : Event) (s : State) : (emit ev s).r = s.r := rfl
@[simp] theorem emit_l (ev : Event) (s : State) : (emit ev s).l = s.l := rfl
@[simp] theorem emit_crcAcc (ev : Event) (s : State) : (emit ev s).crcAcc = s.crcAcc := rfl
@[simp] theorem emit_flLocked (ev : Event) (s : State) : (emit ev s).flLocked = s.flLocked := rfl
@[simp] theorem emit_obLocked (ev : Event) (s : State) : (emit ev s).obLocked = s.obLocked := rfl
@[simp] theorem emit_mem (ev : Event) (s : State) : (emit ev s).mem = s.mem := rfl
@[simp] theorem emit_rop (ev : Event) (s : State) : (emit ev s).rop = s.rop := rfl
@[simp] theorem emit_rxIn (ev : Event) (s : State) : (emit ev s).rxIn = s.rxIn := rfl
@[simp] theorem emit_answers (ev : Event) (s : State) : (emit ev s).answers = s.answers := rfl
@[simp] theorem emit_calls (ev : Event) (s : State) : (emit ev s).calls = s.calls := rfl
@[simp] theorem emit_events (ev : Event) (s : State) : (emit ev s).events = s.events ++ [ev] := rfl

/-! ### afterCall -/

@[simp] theorem afterCall_cfg (s : State) : s.afterCall.cfg = s.cfg := rfl
@[simp] theorem afterCall_phase (s : State) : s.afterCall.phase = s.phase := rfl
@[simp] theorem afterCall_handedOff (s : State) : s.afterCall.handedOff = s.handedOff := rfl
@[simp] theorem afterCall_fb (s : State) : s.afterCall.fb = s.fb := rfl
@[simp] theorem afterCall_crcPass (s : State) : s.afterCall.crcPass = s.crcPass := rfl
@[simp] theorem afterCall_wi (s : State) : s.afterCall.wi = s.wi := rfl
@[simp] theorem afterCall_u (s : State) : s.afterCall.u = s.u := rfl
@[simp] theorem afterCall_e (s : State) : s.afterCall.e = s.e := rfl
@[simp] theorem afterCall_w (s : State) : s.afterCall.w = s.w := rfl
@[simp] theorem afterCall_p (s : State) : s.afterCall.p = s.p := rfl
@[simp] theorem afterCall_r (s : State) : s.afterCall.r = s.r := rfl
@[simp] theorem afterCall_l (s : State) : s.afterCall.l = s.l := rfl
@[simp] theorem afterCall_crcAcc (s : State) : s.afterCall.crcAcc = s.crcAcc := rfl
@[simp] theorem afterCall_flLocked (s : State) : s.afterCall.flLocked = s.flLocked := rfl
@[simp] theorem afterCall_obLocked (s : State) : s.afterCall.obLocked = s.obLocked := rfl
@[simp] theorem afterCall_mem (s : State) : s.afterCall.mem = s.mem := rfl
@[simp] theorem afterCall_rop (s : State) : s.afterCall.rop = s.rop := rfl
@[simp] theorem afterCall_rxIn (s : State) : s.afterCall.rxIn = s.rxIn := rfl
@[simp] theorem afterCall_answers (s : State) : s.afterCall.answers = s.answers.tail := rfl
@[simp] theorem afterCall_calls (s : State) : s.afterCall.calls = s.calls + 1 := rfl
@[simp] theorem afterCall_events (s : State) : s.afterCall.events = s.events := rfl

/-! ### send -/

@[simp] theorem send_cfg (bs : List Byte) (s : State) : (send bs s).cfg = s.cfg := rfl
@[simp] theorem send_phase (bs : List Byte) (s : State) : (send bs s).phase = s.phase := rfl
@[simp] theorem send_handedOff (bs : List Byte) (s : State) : (send bs s).handedOff = s.handedOff := rfl
@[simp] theorem send_fb (bs : List Byte) (s : State) : (send bs s).fb = s.fb := rfl
@[simp] theorem send_crcPass (bs : List Byte) (s : State) : (send bs s).crcPass = s.crcPass := rfl
@[simp] theorem send_wi (bs : List Byte) (s : State) : (send bs s).wi = s.wi := rfl
@[simp] theorem send_u (bs : List Byte) (s : State) : (send bs s).u = s.u := rfl
@[simp] theorem send_e (bs : List Byte) (s : State) : (send bs s).e = s.e := rfl
@[simp] theorem send_w (bs : List Byte) (s : State) : (send bs s).w = s.w := rfl
@[simp] theorem send_p (bs : List Byte) (s : State) : (send bs s).p = s.p := rfl
@[simp] theorem send_r (bs : List Byte) (s : State) : (send bs s).r = s.r := rfl
@[simp] theorem send_l (bs : List Byte) (s : State) : (send bs s).l = s.l := rfl
@[simp] theorem send_crcAcc (bs : List Byte) (s : State) : (send bs s).crcAcc = s.crcAcc := rfl
@[simp] theorem send_flLocked (bs : List Byte) (s : State) : (send bs s).flLocked = s.flLocked := rfl
@[simp] theorem send_obLocked (bs : List Byte) (s : State) : (send bs s).obLocked = s.obLocked := rfl
@[simp] theorem send_mem (bs : List Byte) (s : State) : (send bs s).mem = s.mem := rfl
@[simp] theorem send_rop (bs : List Byte) (s : State) : (send bs s).rop = s.rop := rfl
@[simp] theorem send_rxIn (bs : List Byte) (s : State) : (send bs s).rxIn = s.rxIn := rfl
@[simp] theorem send_answers (bs : List Byte) (s : State) : (send bs s).answers = s.answers := rfl
@[simp] theorem send_calls (bs : List Byte) (s : State) : (send bs s).calls = s.calls := rfl
@[simp] theorem send_events (bs : List Byte) (s : State) : (send bs s).events = s.events ++ [.tx bs] := rfl

/-! ### setPhase -/

@[simp] theorem setPhase_cfg (ph : Phase) (s : State) : (setPhase ph s).cfg = s.cfg := rfl
@[simp] theorem setPhase_phase (ph : Phase) (s : State) : (setPhase ph s).phase = ph := rfl
@[simp] theorem setPhase_handedOff (ph : Phase) (s : State) : (setPhase ph s).handedOff = s.handedOff := rfl
@[simp] theorem setPhase_fb (ph : Phase) (s : State) : (setPhase ph s).fb = s.fb := rfl
@[simp] theorem setPhase_crcPass (ph : Phase) (s : State) : (setPhase ph s).crcPass = s.crcPass := rfl
@[simp] theorem setPhase_wi (ph : Phase) (s : State) : (setPhase ph s).wi = s.wi := rfl
@[simp] theorem setPhase_u (ph : Phase) (s : State) : (setPhase ph s).u = s.u := rfl
@[simp] theorem setPhase_e (ph : Phase) (s : State) : (setPhase ph s).e = s.e := rfl
@[simp] theorem setPhase_w (ph : Phase) (s : State) : (setPhase ph s).w = s.w := rfl
@[simp] theorem setPhase_p (ph : Phase) (s : State) : (setPhase ph s).p = s.p := rfl
@[simp] theorem setPhase_r (ph : Phase) (s : State) : (setPhase ph s).r = s.r := rfl
@[simp] theorem setPhase_l (ph : Phase) (s : State) : (setPhase ph s).l = s.l := rfl
@[simp] theorem setPhase_crcAcc (ph : Phase) (s : State) : (setPhase ph s).crcAcc = s.crcAcc := rfl
@[simp] theorem setPhase_flLocked (ph : Phase) (s : State) : (setPhase ph s).flLocked = s.flLocked := rfl
@[simp] theorem setPhase_obLocked (ph : Phase) (s : State) : (setPhase ph s).obLocked = s.obLocked := rfl
@[simp] theorem setPhase_mem (ph : Phase) (s : State) : (setPhase ph s).mem = s.mem := rfl
@[simp] theorem setPhase_rop (ph : Phase) (s : State) : (setPhase ph s).rop = s.rop := rfl
@[simp] theorem setPhase_rxIn (ph : Phase) (s : State) : (setPhase ph s).rxIn = s.rxIn := rfl
@[simp] theorem setPhase_answers (ph : Phase) (s : State) : (setPhase ph s).answers = s.answers := rfl
@[simp] theorem setPhase_calls (ph : Phase) (s : State) : (setPhase ph s).calls = s.calls := rfl
@[simp] theorem setPhase_events (ph : Phase) (s : State) : (setPhase ph s).events = s.events := rfl

/-! ### storeFb -/

@[simp] theorem storeFb_cfg (pos : Nat) (bs : List Byte) (s : State) : (storeFb pos bs s).cfg = s.cfg := rfl
@[simp] theorem storeFb_phase (pos : Nat) (bs : List Byte) (s : State) :
    (storeFb pos bs s).phase = s.phase := rfl
@[simp] theorem storeFb_handedOff (pos : Nat) (bs : List Byte) (s : State) :
    (storeFb pos bs s).handedOff = s.handedOff := rfl
@[simp] theorem storeFb_fb (pos : Nat) (bs : List Byte) (s : State) :
    (storeFb pos bs s).fb = (s.fb.take pos ++ bs ++ s.fb.drop (pos + bs.length)).take s.fb.length := rfl
@[simp] theorem storeFb_crcPass (pos : Nat) (bs : List Byte) (s : State) :
    (storeFb pos bs s).crcPass = s.crcPass := rfl
@[simp] theorem storeFb_wi (pos : Nat) (bs : List Byte) (s : State) : (storeFb pos bs s).wi = s.wi := rfl
@[simp] theorem storeFb_u (pos : Nat) (bs : List Byte) (s : State) : (storeFb pos bs s).u = s.u := rfl
@[simp] theorem storeFb_e (pos : Nat) (bs : List Byte) (s : State) : (storeFb pos bs s).e = s.e := rfl
@[simp] theorem storeFb_w (pos : Nat) (bs : List Byte) (s : State) : (storeFb pos bs s).w = s.w := rfl
@[simp] theorem storeFb_p (pos : Nat) (bs : List Byte) (s : State) : (storeFb pos bs s).p = s.p := rfl
@[simp] theorem storeFb_r (pos : Nat) (bs : List Byte) (s : State) : (storeFb pos bs s).r = s.r := rfl
@[simp] theorem storeFb_l (pos : Nat) (bs : List Byte) (s : State) : (storeFb pos bs s).l = s.l := rfl
@[simp] theorem storeFb_crcAcc (pos : Nat) (bs : List Byte) (s : State) :
    (storeFb pos bs s).crcAcc = s.crcAcc := rfl
@[simp] theorem storeFb_flLocked (pos : Nat) (bs : List Byte) (s : State) :
    (storeFb pos bs s).flLocked = s.flLocked := rfl
@[simp] theorem storeFb_obLocked (pos : Nat) (bs : List Byte) (s : State) :
    (storeFb pos bs s).obLocked = s.obLocked := rfl
@[simp] theorem storeFb_mem (pos : Nat) (bs : List Byte) (s : State) : (storeFb pos bs s).mem = s.mem := rfl
@[simp] theorem storeFb_rop (pos : Nat) (bs : List Byte) (s : State) : (storeFb pos bs s).rop = s.rop := rfl
@[simp] theorem storeFb_rxIn (pos : Nat) (bs : List Byte) (s : State) :
    (storeFb pos bs s).rxIn = s.rxIn := rfl
@[simp] theorem storeFb_answers (pos : Nat) (bs : List Byte) (s : State) :
    (storeFb pos bs s).answers = s.answers := rfl
@[simp] theorem storeFb_calls (pos : Nat) (bs : List Byte) (s : State) :
    (storeFb pos bs s).calls = s.calls := rfl
@[simp] theorem storeFb_events (pos : Nat) (bs : List Byte) (s : State) :
    (storeFb pos bs s).events = s.events := rfl

/-! ### recv -/

@[simp] theorem recv_cfg (n : Nat) (s : State) : (recv n s).cfg = s.cfg := rfl
@[simp] theorem recv_phase (n : Nat) (s : State) : (recv n s).phase = s.phase := rfl
@[simp] theorem recv_handedOff (n : Nat) (s : State) : (recv n s).handedOff = s.handedOff := rfl
@[simp] theorem recv_fb (n : Nat) (s : State) : (recv n s).fb = s.fb := rfl
@[simp] theorem recv_crcPass (n : Nat) (s : State) : (recv n s).crcPass = s.crcPass := rfl
@[simp] theorem recv_wi (n : Nat) (s : State) : (recv n s).wi = s.wi := rfl
@[simp] theorem recv_u (n : Nat) (s : State) : (recv n s).u = s.u := rfl
@[simp] theorem recv_e (n : Nat) (s : State) : (recv n s).e = s.e := rfl
@[simp] theorem recv_w (n : Nat) (s : State) : (recv n s).w = s.w := rfl
@[simp] theorem recv_p (n : Nat) (s : State) : (recv n s).p = s.p := rfl
@[simp] theorem recv_r (n : Nat) (s : State) : (recv n s).r = s.r := rfl
@[simp] theorem recv_l (n : Nat) (s : State) : (recv n s).l = s.l := rfl
@[simp] theorem recv_crcAcc (n : Nat) (s : State) : (recv n s).crcAcc = s.crcAcc := rfl
@[simp] theorem recv_flLocked (n : Nat) (s : State) : (recv n s).flLocked = s.flLocked := rfl
@[simp] theorem recv_obLocked (n : Nat) (s : State) : (recv n s).obLocked = s.obLocked := rfl
@[simp] theorem recv_mem (n : Nat) (s : State) : (recv n s).mem = s.mem := rfl
@[simp] theorem recv_rop (n : Nat) (s : State) : (recv n s).rop = s.rop := rfl
@[simp] theorem recv_rxIn (n : Nat) (s : State) :
    (recv n s).rxIn = (match takeBytes n s.rxIn with | some (_, q) => q | none => afterTimeout s.rxIn) := rfl
@[simp] theorem recv_answers (n : Nat) (s : State) : (recv n s).answers = s.answers := rfl
@[simp] theorem recv_calls (n : Nat) (s : State) : (recv n s).calls = s.calls := rfl
@[simp] theorem recv_events (n : Nat) (s : State) :
    (recv n s).events = s.events ++ [.rx n (s.rxAnswer n)] := rfl

/-! ### checkCrc -/

@[simp] theorem checkCrc_cfg (s : State) : (checkCrc s).cfg = s.cfg := rfl
@[simp] theorem checkCrc_phase (s : State) : (checkCrc s).phase = s.phase := rfl
@[simp] theorem checkCrc_handedOff (s : State) : (checkCrc s).handedOff = s.handedOff := rfl
@[simp] theorem checkCrc_fb (s : State) : (checkCrc s).fb = s.fb := rfl
@[simp] theorem checkCrc_crcPass (s : State) : (checkCrc s).crcPass = s.crcMatches := rfl
@[simp] theorem checkCrc_wi (s : State) : (checkCrc s).wi = s.wi := rfl
@[simp] theorem checkCrc_u (s : State) : (checkCrc s).u = s.u := rfl
@[simp] theorem checkCrc_e (s : State) : (checkCrc s).e = s.e := rfl
@[simp] theorem checkCrc_w (s : State) : (checkCrc s).w = s.w := rfl
@[simp] theorem checkCrc_p (s : State) : (checkCrc s).p = s.p := rfl
@[simp] theorem checkCrc_r (s : State) : (checkCrc s).r = s.r := rfl
@[simp] theorem checkCrc_l (s : State) : (checkCrc s).l = s.l := rfl
@[simp] theorem checkCrc_crcAcc (s : State) : (checkCrc s).crcAcc = Config.crcResidue s.covered := rfl
@[simp] theorem checkCrc_flLocked (s : State) : (checkCrc s).flLocked = s.flLocked := rfl
@[simp] theorem checkCrc_obLocked (s : State) : (checkCrc s).obLocked = s.obLocked := rfl
@[simp] theorem checkCrc_mem (s : State) : (checkCrc s).mem = s.mem := rfl
@[simp] theorem checkCrc_rop (s : State) : (checkCrc s).rop = s.rop := rfl
@[simp] theorem checkCrc_rxIn (s : State) : (checkCrc s).rxIn = s.rxIn := rfl
@[simp] theorem checkCrc_answers (s : State) : (checkCrc s).answers = s.answers := rfl
@[simp] theorem checkCrc_calls (s : State) : (checkCrc s).calls = s.calls := rfl
@[simp] theorem checkCrc_events (s : State) :
    (checkCrc s).events = s.events ++ [.crc s.covered (crc32 s.cfg.crc s.covered)] := rfl

/-! ### flUnlock -/

@[simp] theorem flUnlock_cfg (s : State) : (flUnlock s).cfg = s.cfg := rfl
@[simp] theorem flUnlock_phase (s : State) : (flUnlock s).phase = s.phase := rfl
@[simp] theorem flUnlock_handedOff (s : State) : (flUnlock s).handedOff = s.handedOff := rfl
@[simp] theorem flUnlock_fb (s : State) : (flUnlock s).fb = s.fb := rfl
@[simp] theorem flUnlock_crcPass (s : State) : (flUnlock s).crcPass = s.crcPass := rfl
@[simp] theorem flUnlock_wi (s : State) : (flUnlock s).wi = s.wi := rfl
@[simp] theorem flUnlock_u (s : State) : (flUnlock s).u = s.answerAt 0 := rfl
@[simp] theorem flUnlock_e (s : State) : (flUnlock s).e = s.e := rfl
@[simp] theorem flUnlock_w (s : State) : (flUnlock s).w = s.w := rfl
@[simp] theorem flUnlock_p (s : State) : (flUnlock s).p = s.p := rfl
@[simp] theorem flUnlock_r (s : State) : (flUnlock s).r = s.r := rfl
@[simp] theorem flUnlock_l (s : State) : (flUnlock s).l = s.l := rfl
@[simp] theorem flUnlock_crcAcc (s : State) : (flUnlock s).crcAcc = s.crcAcc := rfl
@[simp] theorem flUnlock_flLocked (s : State) :
    (flUnlock s).flLocked = (match s.answerAt 0 with | .ok => false | .fail => Config.freeLock s.calls) := rfl
@[simp] theorem flUnlock_obLocked (s : State) : (flUnlock s).obLocked = s.obLocked := rfl
@[simp] theorem flUnlock_mem (s : State) : (flUnlock s).mem = s.mem := rfl
@[simp] theorem flUnlock_rop (s : State) : (flUnlock s).rop = s.rop := rfl
@[simp] theorem flUnlock_rxIn (s : State) : (flUnlock s).rxIn = s.rxIn := rfl
@[simp] theorem flUnlock_answers (s : State) : (flUnlock s).answers = s.answers.tail := rfl
@[simp] theorem flUnlock_calls (s : State) : (flUnlock s).calls = s.calls + 1 := rfl
@[simp] theorem flUnlock_events (s : State) :
    (flUnlock s).events = s.events ++ [.flUnlock (s.answerAt 0)] := rfl

/-! ### flLock -/

@[simp] theorem flLock_cfg (s : State) : (flLock s).cfg = s.cfg := rfl
@[simp] theorem flLock_phase (s : State) : (flLock s).phase = s.phase := rfl
@[simp] theorem flLock_handedOff (s : State) : (flLock s).handedOff = s.handedOff := rfl
@[simp] theorem flLock_fb (s : State) : (flLock s).fb = s.fb := rfl
@[simp] theorem flLock_crcPass (s : State) : (flLock s).crcPass = s.crcPass := rfl
@[simp] theorem flLock_wi (s : State) : (flLock s).wi = s.wi := rfl
@[simp] theorem flLock_u (s : State) : (flLock s).u = s.u := rfl
@[simp] theorem flLock_e (s : State) : (flLock s).e = s.e := rfl
@[simp] theorem flLock_w (s : State) : (flLock s).w = s.w := rfl
@[simp] theorem flLock_p (s : State) : (flLock s).p = s.p := rfl
@[simp] theorem flLock_r (s : State) : (flLock s).r = s.r := rfl
@[simp] theorem flLock_l (s : State) : (flLock s).l = s.answerAt 0 := rfl
@[simp] theorem flLock_crcAcc (s : State) : (flLock s).crcAcc = s.crcAcc := rfl
@[simp] theorem flLock_flLocked (s : State) :
    (flLock s).flLocked = (match s.answerAt 0 with | .ok => true | .fail => Config.freeLock s.calls) := rfl
@[simp] theorem flLock_obLocked (s : State) : (flLock s).obLocked = s.obLocked := rfl
@[simp] theorem flLock_mem (s : State) : (flLock s).mem = s.mem := rfl
@[simp] theorem flLock_rop (s : State) : (flLock s).rop = s.rop := rfl
@[simp] theorem flLock_rxIn (s : State) : (flLock s).rxIn = s.rxIn := rfl
@[simp] theorem flLock_answers (s : State) : (flLock s).answers = s.answers.tail := rfl
@[simp] theorem flLock_calls (s : State) : (flLock s).calls = s.calls + 1 := rfl
@[simp] theorem flLock_events (s : State) : (flLock s).events = s.events ++ [.flLock (s.answerAt 0)] := rfl

/-! ### flErase -/

@[simp] theorem flErase_cfg (req : EraseReq) (s : State) : (flErase req s).cfg = s.cfg := rfl
@[simp] theorem flErase_phase (req : EraseReq) (s : State) : (flErase req s).phase = s.phase := rfl
@[simp] theorem flErase_handedOff (req : EraseReq) (s : State) :
    (flErase req s).handedOff = s.handedOff := rfl
@[simp] theorem flErase_fb (req : EraseReq) (s : State) : (flErase req s).fb = s.fb := rfl
@[simp] theorem flErase_crcPass (req : EraseReq) (s : State) : (flErase req s).crcPass = s.crcPass := rfl
@[simp] theorem flErase_wi (req : EraseReq) (s : State) : (flErase req s).wi = s.wi := rfl
@[simp] theorem flErase_u (req : EraseReq) (s : State) : (flErase req s).u = s.u := rfl
@[simp] theorem flErase_e (req : EraseReq) (s : State) : (flErase req s).e = s.answerAt 0 := rfl
@[simp] theorem flErase_w (req : EraseReq) (s : State) : (flErase req s).w = s.w := rfl
@[simp] theorem flErase_p (req : EraseReq) (s : State) : (flErase req s).p = s.p := rfl
@[simp] theorem flErase_r (req : EraseReq) (s : State) : (flErase req s).r = s.r := rfl
@[simp] theorem flErase_l (req : EraseReq) (s : State) : (flErase req s).l = s.l := rfl
@[simp] theorem flErase_crcAcc (req : EraseReq) (s : State) : (flErase req s).crcAcc = s.crcAcc := rfl
@[simp] theorem flErase_flLocked (req : EraseReq) (s : State) : (flErase req s).flLocked = s.flLocked := rfl
@[simp] theorem flErase_obLocked (req : EraseReq) (s : State) : (flErase req s).obLocked = s.obLocked := rfl
@[simp] theorem flErase_mem (req : EraseReq) (s : State) :
    (flErase req s).mem = s.mem.fillClipped (req.base s.cfg) (req.size s.cfg) (match s.answerAt 0 with | .ok => fun _ => s.cfg.erasedByte | .fail => Config.freeByte s.calls) := rfl
@[simp] theorem flErase_rop (req : EraseReq) (s : State) : (flErase req s).rop = s.rop := rfl
@[simp] theorem flErase_rxIn (req : EraseReq) (s : State) : (flErase req s).rxIn = s.rxIn := rfl
@[simp] theorem flErase_answers (req : EraseReq) (s : State) : (flErase req s).answers = s.answers.tail := rfl
@[simp] theorem flErase_calls (req : EraseReq) (s : State) : (flErase req s).calls = s.calls + 1 := rfl
@[simp] theorem flErase_events (req : EraseReq) (s : State) :
    (flErase req s).events = s.events ++ [.flErase req (s.answerAt 0)] := rfl

/-! ### flProg -/

@[simp] theorem flProg_cfg (a : W32) (v : Byte) (s : State) : (flProg a v s).cfg = s.cfg := rfl
@[simp] theorem flProg_phase (a : W32) (v : Byte) (s : State) : (flProg a v s).phase = s.phase := rfl
@[simp] theorem flProg_handedOff (a : W32) (v : Byte) (s : State) :
    (flProg a v s).handedOff = s.handedOff := rfl
@[simp] theorem flProg_fb (a : W32) (v : Byte) (s : State) : (flProg a v s).fb = s.fb := rfl
@[simp] theorem flProg_crcPass (a : W32) (v : Byte) (s : State) : (flProg a v s).crcPass = s.crcPass := rfl
@[simp] theorem flProg_wi (a : W32) (v : Byte) (s : State) : (flProg a v s).wi = s.wi := rfl
@[simp] theorem flProg_u (a : W32) (v : Byte) (s : State) : (flProg a v s).u = s.u := rfl
@[simp] theorem flProg_e (a : W32) (v : Byte) (s : State) : (flProg a v s).e = s.e := rfl
@[simp] theorem flProg_w (a : W32) (v : Byte) (s : State) : (flProg a v s).w = s.answerAt 0 := rfl
@[simp] theorem flProg_p (a : W32) (v : Byte) (s : State) : (flProg a v s).p = s.p := rfl
@[simp] theorem flProg_r (a : W32) (v : Byte) (s : State) : (flProg a v s).r = s.r := rfl
@[simp] theorem flProg_l (a : W32) (v : Byte) (s : State) : (flProg a v s).l = s.l := rfl
@[simp] theorem flProg_crcAcc (a : W32) (v : Byte) (s : State) : (flProg a v s).crcAcc = s.crcAcc := rfl
@[simp] theorem flProg_flLocked (a : W32) (v : Byte) (s : State) : (flProg a v s).flLocked = s.flLocked := rfl
@[simp] theorem flProg_obLocked (a : W32) (v : Byte) (s : State) : (flProg a v s).obLocked = s.obLocked := rfl
@[simp] theorem flProg_mem (a : W32) (v : Byte) (s : State) :
    (flProg a v s).mem = s.mem.write a (match s.answerAt 0 with | .ok => v | .fail => Config.freeByte s.calls a.toNat) := rfl
@[simp] theorem flProg_rop (a : W32) (v : Byte) (s : State) : (flProg a v s).rop = s.rop := rfl
@[simp] theorem flProg_rxIn (a : W32) (v : Byte) (s : State) : (flProg a v s).rxIn = s.rxIn := rfl
@[simp] theorem flProg_answers (a : W32) (v : Byte) (s : State) :
    (flProg a v s).answers = s.answers.tail := rfl
@[simp] theorem flProg_calls (a : W32) (v : Byte) (s : State) : (flProg a v s).calls = s.calls + 1 := rfl
@[simp] theorem flProg_events (a : W32) (v : Byte) (s : State) :
    (flProg a v s).events = s.events ++ [.flProg a v (s.answerAt 0)] := rfl

/-! ### obUnlock -/

@[simp] theorem obUnlock_cfg (s : State) : (obUnlock s).cfg = s.cfg := rfl
@[simp] theorem obUnlock_phase (s : State) : (obUnlock s).phase = s.phase := rfl
@[simp] theorem obUnlock_handedOff (s : State) : (obUnlock s).handedOff = s.handedOff := rfl
@[simp] theorem obUnlock_fb (s : State) : (obUnlock s).fb = s.fb := rfl
@[simp] theorem obUnlock_crcPass (s : State) : (obUnlock s).crcPass = s.crcPass := rfl
@[simp] theorem obUnlock_wi (s : State) : (obUnlock s).wi = s.wi := rfl
@[simp] theorem obUnlock_u (s : State) : (obUnlock s).u = s.answerAt 0 := rfl
@[simp] theorem obUnlock_e (s : State) : (obUnlock s).e = s.e := rfl
@[simp] theorem obUnlock_w (s : State) : (obUnlock s).w = s.w := rfl
@[simp] theorem obUnlock_p (s : State) : (obUnlock s).p = s.p := rfl
@[simp] theorem obUnlock_r (s : State) : (obUnlock s).r = s.r := rfl
@[simp] theorem obUnlock_l (s : State) : (obUnlock s).l = s.l := rfl
@[simp] theorem obUnlock_crcAcc (s : State) : (obUnlock s).crcAcc = s.crcAcc := rfl
@[simp] theorem obUnlock_flLocked (s : State) : (obUnlock s).flLocked = s.flLocked := rfl
@[simp] theorem obUnlock_obLocked (s : State) :
    (obUnlock s).obLocked = (match s.answerAt 0 with | .ok => false | .fail => Config.freeLock s.calls) := rfl
@[simp] theorem obUnlock_mem (s : State) : (obUnlock s).mem = s.mem := rfl
@[simp] theorem obUnlock_rop (s : State) : (obUnlock s).rop = s.rop := rfl
@[simp] theorem obUnlock_rxIn (s : State) : (obUnlock s).rxIn = s.rxIn := rfl
@[simp] theorem obUnlock_answers (s : State) : (obUnlock s).answers = s.answers.tail := rfl
@[simp] theorem obUnlock_calls (s : State) : (obUnlock s).calls = s.calls + 1 := rfl
@[simp] theorem obUnlock_events (s : State) :
    (obUnlock s).events = s.events ++ [.obUnlock (s.answerAt 0)] := rfl

/-! ### obLock -/

@[simp] theorem obLock_cfg (s : State) : (obLock s).cfg = s.cfg := rfl
@[simp] theorem obLock_phase (s : State) : (obLock s).phase = s.phase := rfl
@[simp] theorem obLock_handedOff (s : State) : (obLock s).handedOff = s.handedOff := rfl
@[simp] theorem obLock_fb (s : State) : (obLock s).fb = s.fb := rfl
@[simp] theorem obLock_crcPass (s : State) : (obLock s).crcPass = s.crcPass := rfl
@[simp] theorem obLock_wi (s : State) : (obLock s).wi = s.wi := rfl
@[simp] theorem obLock_u (s : State) : (obLock s).u = s.u := rfl
@[simp] theorem obLock_e (s : State) : (obLock s).e = s.e := rfl
@[simp] theorem obLock_w (s : State) : (obLock s).w = s.w := rfl
@[simp] theorem obLock_p (s : State) : (obLock s).p = s.p := rfl
@[simp] theorem obLock_r (s : State) : (obLock s).r = s.r := rfl
@[simp] theorem obLock_l (s : State) : (obLock s).l = s.answerAt 0 := rfl
@[simp] theorem obLock_crcAcc (s : State) : (obLock s).crcAcc = s.crcAcc := rfl
@[simp] theorem obLock_flLocked (s : State) : (obLock s).flLocked = s.flLocked := rfl
@[simp] theorem obLock_obLocked (s : State) :
    (obLock s).obLocked = (match s.answerAt 0 with | .ok => true | .fail => Config.freeLock s.calls) := rfl
@[simp] theorem obLock_mem (s : State) : (obLock s).mem = s.mem := rfl
@[simp] theorem obLock_rop (s : State) : (obLock s).rop = s.rop := rfl
@[simp] theorem obLock_rxIn (s : State) : (obLock s).rxIn = s.rxIn := rfl
@[simp] theorem obLock_answers (s : State) : (obLock s).answers = s.answers.tail := rfl
@[simp] theorem obLock_calls (s : State) : (obLock s).calls = s.calls + 1 := rfl
@[simp] theorem obLock_events (s : State) : (obLock s).events = s.events ++ [.obLock (s.answerAt 0)] := rfl

/-! ### obProg -/

@[simp] theorem obProg_cfg (k : SetLevel) (s : State) : (obProg k s).cfg = s.cfg := rfl
@[simp] theorem obProg_phase (k : SetLevel) (s : State) : (obProg k s).phase = s.phase := rfl
@[simp] theorem obProg_handedOff (k : SetLevel) (s : State) : (obProg k s).handedOff = s.handedOff := rfl
@[simp] theorem obProg_fb (k : SetLevel) (s : State) : (obProg k s).fb = s.fb := rfl
@[simp] theorem obProg_crcPass (k : SetLevel) (s : State) : (obProg k s).crcPass = s.crcPass := rfl
@[simp] theorem obProg_wi (k : SetLevel) (s : State) : (obProg k s).wi = s.wi := rfl
@[simp] theorem obProg_u (k : SetLevel) (s : State) : (obProg k s).u = s.u := rfl
@[simp] theorem obProg_e (k : SetLevel) (s : State) : (obProg k s).e = s.e := rfl
@[simp] theorem obProg_w (k : SetLevel) (s : State) : (obProg k s).w = s.w := rfl
@[simp] theorem obProg_p (k : SetLevel) (s : State) : (obProg k s).p = s.answerAt 0 := rfl
@[simp] theorem obProg_r (k : SetLevel) (s : State) : (obProg k s).r = s.r := rfl
@[simp] theorem obProg_l (k : SetLevel) (s : State) : (obProg k s).l = s.l := rfl
@[simp] theorem obProg_crcAcc (k : SetLevel) (s : State) : (obProg k s).crcAcc = s.crcAcc := rfl
@[simp] theorem obProg_flLocked (k : SetLevel) (s : State) : (obProg k s).flLocked = s.flLocked := rfl
@[simp] theorem obProg_obLocked (k : SetLevel) (s : State) : (obProg k s).obLocked = s.obLocked := rfl
@[simp] theorem obProg_mem (k : SetLevel) (s : State) : (obProg k s).mem = s.mem := rfl
@[simp] theorem obProg_rop (k : SetLevel) (s : State) :
    (obProg k s).rop = (match s.answerAt 0 with | .ok => s.rop | .fail => freeLevel s.calls s.rop k) := rfl
@[simp] theorem obProg_rxIn (k : SetLevel) (s : State) : (obProg k s).rxIn = s.rxIn := rfl
@[simp] theorem obProg_answers (k : SetLevel) (s : State) : (obProg k s).answers = s.answers.tail := rfl
@[simp] theorem obProg_calls (k : SetLevel) (s : State) : (obProg k s).calls = s.calls + 1 := rfl
@[simp] theorem obProg_events (k : SetLevel) (s : State) :
    (obProg k s).events = s.events ++ [.obProg (ropEnc s.cfg k) (s.answerAt 0)] := rfl

/-! ### obReload -/

@[simp] theorem obReload_cfg (k : SetLevel) (s : State) : (obReload k s).cfg = s.cfg := rfl
@[simp] theorem obReload_phase (k : SetLevel) (s : State) : (obReload k s).phase = s.phase := rfl
@[simp] theorem obReload_handedOff (k : SetLevel) (s : State) : (obReload k s).handedOff = s.handedOff := rfl
@[simp] theorem obReload_fb (k : SetLevel) (s : State) : (obReload k s).fb = s.fb := rfl
@[simp] theorem obReload_crcPass (k : SetLevel) (s : State) : (obReload k s).crcPass = s.crcPass := rfl
@[simp] theorem obReload_wi (k : SetLevel) (s : State) : (obReload k s).wi = s.wi := rfl
@[simp] theorem obReload_u (k : SetLevel) (s : State) : (obReload k s).u = s.u := rfl
@[simp] theorem obReload_e (k : SetLevel) (s : State) : (obReload k s).e = s.e := rfl
@[simp] theorem obReload_w (k : SetLevel) (s : State) : (obReload k s).w = s.w := rfl
@[simp] theorem obReload_p (k : SetLevel) (s : State) : (obReload k s).p = s.p := rfl
@[simp] theorem obReload_r (k : SetLevel) (s : State) : (obReload k s).r = s.answerAt 0 := rfl
@[simp] theorem obReload_l (k : SetLevel) (s : State) : (obReload k s).l = s.l := rfl
@[simp] theorem obReload_crcAcc (k : SetLevel) (s : State) : (obReload k s).crcAcc = s.crcAcc := rfl
@[simp] theorem obReload_flLocked (k : SetLevel) (s : State) : (obReload k s).flLocked = s.flLocked := rfl
@[simp] theorem obReload_obLocked (k : SetLevel) (s : State) : (obReload k s).obLocked = s.obLocked := rfl
@[simp] theorem obReload_mem (k : SetLevel) (s : State) : (obReload k s).mem = s.mem := rfl
@[simp] theorem obReload_rop (k : SetLevel) (s : State) :
    (obReload k s).rop = (match s.answerAt 0 with | .ok => k.toLevel | .fail => freeLevel s.calls s.rop k) := rfl
@[simp] theorem obReload_rxIn (k : SetLevel) (s : State) : (obReload k s).rxIn = s.rxIn := rfl
@[simp] theorem obReload_answers (k : SetLevel) (s : State) : (obReload k s).answers = s.answers.tail := rfl
@[simp] theorem obReload_calls (k : SetLevel) (s : State) : (obReload k s).calls = s.calls + 1 := rfl
@[simp] theorem obReload_events (k : SetLevel) (s : State) :
    (obReload k s).events = s.events ++ [.obReload (s.answerAt 0)] := rfl

/-! ### ropRead -/

@[simp] theorem ropRead_cfg (s : State) : (ropRead s).cfg = s.cfg := rfl
@[simp] theorem ropRead_phase (s : State) : (ropRead s).phase = s.phase := rfl
@[simp] theorem ropRead_handedOff (s : State) : (ropRead s).handedOff = s.handedOff := rfl
@[simp] theorem ropRead_fb (s : State) : (ropRead s).fb = s.fb := rfl
@[simp] theorem ropRead_crcPass (s : State) : (ropRead s).crcPass = s.crcPass := rfl
@[simp] theorem ropRead_wi (s : State) : (ropRead s).wi = s.wi := rfl
@[simp] theorem ropRead_u (s : State) : (ropRead s).u = s.u := rfl
@[simp] theorem ropRead_e (s : State) : (ropRead s).e = s.e := rfl
@[simp] theorem ropRead_w (s : State) : (ropRead s).w = s.w := rfl
@[simp] theorem ropRead_p (s : State) : (ropRead s).p = s.p := rfl
@[simp] theorem ropRead_r (s : State) : (ropRead s).r = s.r := rfl
@[simp] theorem ropRead_l (s : State) : (ropRead s).l = s.l := rfl
@[simp] theorem ropRead_crcAcc (s : State) : (ropRead s).crcAcc = s.crcAcc := rfl
@[simp] theorem ropRead_flLocked (s : State) : (ropRead s).flLocked = s.flLocked := rfl
@[simp] theorem ropRead_obLocked (s : State) : (ropRead s).obLocked = s.obLocked := rfl
@[simp] theorem ropRead_mem (s : State) : (ropRead s).mem = s.mem := rfl
@[simp] theorem ropRead_rop (s : State) : (ropRead s).rop = s.rop := rfl
@[simp] theorem ropRead_rxIn (s : State) : (ropRead s).rxIn = s.rxIn := rfl
@[simp] theorem ropRead_answers (s : State) : (ropRead s).answers = s.answers := rfl
@[simp] theorem ropRead_calls (s : State) : (ropRead s).calls = s.calls := rfl
@[simp] theorem ropRead_events (s : State) : (ropRead s).events = s.events ++ [.ropRead s.rop] := rfl

/-! ### xfer -/

@[simp] theorem xfer_cfg (t : W32) (s : State) : (xfer t s).cfg = s.cfg := rfl
@[simp] theorem xfer_phase (t : W32) (s : State) : (xfer t s).phase = .handedOff := rfl
@[simp] theorem xfer_handedOff (t : W32) (s : State) : (xfer t s).handedOff = true := rfl
@[simp] theorem xfer_fb (t : W32) (s : State) : (xfer t s).fb = s.fb := rfl
@[simp] theorem xfer_crcPass (t : W32) (s : State) : (xfer t s).crcPass = s.crcPass := rfl
@[simp] theorem xfer_wi (t : W32) (s : State) : (xfer t s).wi = s.wi := rfl
@[simp] theorem xfer_u (t : W32) (s : State) : (xfer t s).u = s.u := rfl
@[simp] theorem xfer_e (t : W32) (s : State) : (xfer t s).e = s.e := rfl
@[simp] theorem xfer_w (t : W32) (s : State) : (xfer t s).w = s.w := rfl
@[simp] theorem xfer_p (t : W32) (s : State) : (xfer t s).p = s.p := rfl
@[simp] theorem xfer_r (t : W32) (s : State) : (xfer t s).r = s.r := rfl
@[simp] theorem xfer_l (t : W32) (s : State) : (xfer t s).l = s.l := rfl
@[simp] theorem xfer_crcAcc (t : W32) (s : State) : (xfer t s).crcAcc = s.crcAcc := rfl
@[simp] theorem xfer_flLocked (t : W32) (s : State) : (xfer t s).flLocked = s.flLocked := rfl
@[simp] theorem xfer_obLocked (t : W32) (s : State) : (xfer t s).obLocked = s.obLocked := rfl
@[simp] theorem xfer_mem (t : W32) (s : State) : (xfer t s).mem = s.mem := rfl
@[simp] theorem xfer_rop (t : W32) (s : State) : (xfer t s).rop = s.rop := rfl
@[simp] theorem xfer_rxIn (t : W32) (s : State) : (xfer t s).rxIn = s.rxIn := rfl
@[simp] theorem xfer_answers (t : W32) (s : State) : (xfer t s).answers = s.answers := rfl
@[simp] theorem xfer_calls (t : W32) (s : State) : (xfer t s).calls = s.calls := rfl
@[simp] theorem xfer_events (t : W32) (s : State) : (xfer t s).events = s.events ++ [.xfer t] := rfl

/-! ### beginCycle -/

@[simp] theorem beginCycle_cfg (s : State) : (beginCycle s).cfg = s.cfg := rfl
@[simp] theorem beginCycle_phase (s : State) : (beginCycle s).phase = .awaitLen := rfl
@[simp] theorem beginCycle_handedOff (s : State) : (beginCycle s).handedOff = s.handedOff := rfl
@[simp] theorem beginCycle_fb (s : State) : (beginCycle s).fb = List.replicate s.cfg.bufCap 0 := rfl
@[simp] theorem beginCycle_crcPass (s : State) : (beginCycle s).crcPass = false := rfl
@[simp] theorem beginCycle_wi (s : State) : (beginCycle s).wi = s.wi := rfl
@[simp] theorem beginCycle_u (s : State) : (beginCycle s).u = s.u := rfl
@[simp] theorem beginCycle_e (s : State) : (beginCycle s).e = s.e := rfl
@[simp] theorem beginCycle_w (s : State) : (beginCycle s).w = s.w := rfl
@[simp] theorem beginCycle_p (s : State) : (beginCycle s).p = s.p := rfl
@[simp] theorem beginCycle_r (s : State) : (beginCycle s).r = s.r := rfl
@[simp] theorem beginCycle_l (s : State) : (beginCycle s).l = s.l := rfl
@[simp] theorem beginCycle_crcAcc (s : State) : (beginCycle s).crcAcc = s.crcAcc := rfl
@[simp] theorem beginCycle_flLocked (s : State) : (beginCycle s).flLocked = s.flLocked := rfl
@[simp] theorem beginCycle_obLocked (s : State) : (beginCycle s).obLocked = s.obLocked := rfl
@[simp] theorem beginCycle_mem (s : State) : (beginCycle s).mem = s.mem := rfl
@[simp] theorem beginCycle_rop (s : State) : (beginCycle s).rop = s.rop := rfl
@[simp] theorem beginCycle_rxIn (s : State) : (beginCycle s).rxIn = s.rxIn := rfl
@[simp] theorem beginCycle_answers (s : State) : (beginCycle s).answers = s.answers := rfl
@[simp] theorem beginCycle_calls (s : State) : (beginCycle s).calls = s.calls := rfl
@[simp] theorem beginCycle_events (s : State) : (beginCycle s).events = s.events := rfl

/-! ### skipErase -/

@[simp] theorem skipErase_cfg (s : State) : (skipErase s).cfg = s.cfg := rfl
@[simp] theorem skipErase_phase (s : State) : (skipErase s).phase = s.phase := rfl
@[simp] theorem skipErase_handedOff (s : State) : (skipErase s).handedOff = s.handedOff := rfl
@[simp] theorem skipErase_fb (s : State) : (skipErase s).fb = s.fb := rfl
@[simp] theorem skipErase_crcPass (s : State) : (skipErase s).crcPass = s.crcPass := rfl
@[simp] theorem skipErase_wi (s : State) : (skipErase s).wi = s.wi := rfl
@[simp] theorem skipErase_u (s : State) : (skipErase s).u = s.u := rfl
@[simp] theorem skipErase_e (s : State) : (skipErase s).e = s.u := rfl
@[simp] theorem skipErase_w (s : State) : (skipErase s).w = s.w := rfl
@[simp] theorem skipErase_p (s : State) : (skipErase s).p = s.p := rfl
@[simp] theorem skipErase_r (s : State) : (skipErase s).r = s.r := rfl
@[simp] theorem skipErase_l (s : State) : (skipErase s).l = s.l := rfl
@[simp] theorem skipErase_crcAcc (s : State) : (skipErase s).crcAcc = s.crcAcc := rfl
@[simp] theorem skipErase_flLocked (s : State) : (skipErase s).flLocked = s.flLocked := rfl
@[simp] theorem skipErase_obLocked (s : State) : (skipErase s).obLocked = s.obLocked := rfl
@[simp] theorem skipErase_mem (s : State) : (skipErase s).mem = s.mem := rfl
@[simp] theorem skipErase_rop (s : State) : (skipErase s).rop = s.rop := rfl
@[simp] theorem skipErase_rxIn (s : State) : (skipErase s).rxIn = s.rxIn := rfl
@[simp] theorem skipErase_answers (s : State) : (skipErase s).answers = s.answers := rfl
@[simp] theorem skipErase_calls (s : State) : (skipErase s).calls = s.calls := rfl
@[simp] theorem skipErase_events (s : State) : (skipErase s).events = s.events := rfl

/-! ### bumpIndex -/

@[simp] theorem bumpIndex_cfg (s : State) : (bumpIndex s).cfg = s.cfg := rfl
@[simp] theorem bumpIndex_phase (s : State) : (bumpIndex s).phase = s.phase := rfl
@[simp] theorem bumpIndex_handedOff (s : State) : (bumpIndex s).handedOff = s.handedOff := rfl
@[simp] theorem bumpIndex_fb (s : State) : (bumpIndex s).fb = s.fb := rfl
@[simp] theorem bumpIndex_crcPass (s : State) : (bumpIndex s).crcPass = s.crcPass := rfl
@[simp] theorem bumpIndex_wi (s : State) : (bumpIndex s).wi = s.wi + 1 := rfl
@[simp] theorem bumpIndex_u (s : State) : (bumpIndex s).u = s.u := rfl
@[simp] theorem bumpIndex_e (s : State) : (bumpIndex s).e = s.e := rfl
@[simp] theorem bumpIndex_w (s : State) : (bumpIndex s).w = s.w := rfl
@[simp] theorem bumpIndex_p (s : State) : (bumpIndex s).p = s.p := rfl
@[simp] theorem bumpIndex_r (s : State) : (bumpIndex s).r = s.r := rfl
@[simp] theorem bumpIndex_l (s : State) : (bumpIndex s).l = s.l := rfl
@[simp] theorem bumpIndex_crcAcc (s : State) : (bumpIndex s).crcAcc = s.crcAcc := rfl
@[simp] theorem bumpIndex_flLocked (s : State) : (bumpIndex s).flLocked = s.flLocked := rfl
@[simp] theorem bumpIndex_obLocked (s : State) : (bumpIndex s).obLocked = s.obLocked := rfl
@[simp] theorem bumpIndex_mem (s : State) : (bumpIndex s).mem = s.mem := rfl
@[simp] theorem bumpIndex_rop (s : State) : (bumpIndex s).rop = s.rop := rfl
@[simp] theorem bumpIndex_rxIn (s : State) : (bumpIndex s).rxIn = s.rxIn := rfl
@[simp] theorem bumpIndex_answers (s : State) : (bumpIndex s).answers = s.answers := rfl
@[simp] theorem bumpIndex_calls (s : State) : (bumpIndex s).calls = s.calls := rfl
@[simp] theorem bumpIndex_events (s : State) : (bumpIndex s).events = s.events := rfl

/-! ### skipProgram -/

@[simp] theorem skipProgram_cfg (s : State) : (skipProgram s).cfg = s.cfg := rfl
@[simp] theorem skipProgram_phase (s : State) : (skipProgram s).phase = s.phase := rfl
@[simp] theorem skipProgram_handedOff (s : State) : (skipProgram s).handedOff = s.handedOff := rfl
@[simp] theorem skipProgram_fb (s : State) : (skipProgram s).fb = s.fb := rfl
@[simp] theorem skipProgram_crcPass (s : State) : (skipProgram s).crcPass = s.crcPass := rfl
@[simp] theorem skipProgram_wi (s : State) : (skipProgram s).wi = s.wi := rfl
@[simp] theorem skipProgram_u (s : State) : (skipProgram s).u = s.u := rfl
@[simp] theorem skipProgram_e (s : State) : (skipProgram s).e = s.e := rfl
@[simp] theorem skipProgram_w (s : State) : (skipProgram s).w = s.w := rfl
@[simp] theorem skipProgram_p (s : State) : (skipProgram s).p = .fail := rfl
@[simp] theorem skipProgram_r (s : State) : (skipProgram s).r = s.r := rfl
@[simp] theorem skipProgram_l (s : State) : (skipProgram s).l = s.l := rfl
@[simp] theorem skipProgram_crcAcc (s : State) : (skipProgram s).crcAcc = s.crcAcc := rfl
@[simp] theorem skipProgram_flLocked (s : State) : (skipProgram s).flLocked = s.flLocked := rfl
@[simp] theorem skipProgram_obLocked (s : State) : (skipProgram s).obLocked = s.obLocked := rfl
@[simp] theorem skipProgram_mem (s : State) : (skipProgram s).mem = s.mem := rfl
@[simp] theorem skipProgram_rop (s : State) : (skipProgram s).rop = s.rop := rfl
@[simp] theorem skipProgram_rxIn (s : State) : (skipProgram s).rxIn = s.rxIn := rfl
@[simp] theorem skipProgram_answers (s : State) : (skipProgram s).answers = s.answers := rfl
@[simp] theorem skipProgram_calls (s : State) : (skipProgram s).calls = s.calls := rfl
@[simp] theorem skipProgram_events (s : State) : (skipProgram s).events = s.events := rfl

/-! ### skipReload -/

@[simp] theorem skipReload_cfg (s : State) : (skipReload s).cfg = s.cfg := rfl
@[simp] theorem skipReload_phase (s : State) : (skipReload s).phase = s.phase := rfl
@[simp] theorem skipReload_handedOff (s : State) : (skipReload s).handedOff = s.handedOff := rfl
@[simp] theorem skipReload_fb (s : State) : (skipReload s).fb = s.fb := rfl
@[simp] theorem skipReload_crcPass (s : State) : (skipReload s).crcPass = s.crcPass := rfl
@[simp] theorem skipReload_wi (s : State) : (skipReload s).wi = s.wi := rfl
@[simp] theorem skipReload_u (s : State) : (skipReload s).u = s.u := rfl
@[simp] theorem skipReload_e (s : State) : (skipReload s).e = s.e := rfl
@[simp] theorem skipReload_w (s : State) : (skipReload s).w = s.w := rfl
@[simp] theorem skipReload_p (s : State) : (skipReload s).p = s.p := rfl
@[simp] theorem skipReload_r (s : State) : (skipReload s).r = .fail := rfl
@[simp] theorem skipReload_l (s : State) : (skipReload s).l = s.l := rfl
@[simp] theorem skipReload_crcAcc (s : State) : (skipReload s).crcAcc = s.crcAcc := rfl
@[simp] theorem skipReload_flLocked (s : State) : (skipReload s).flLocked = s.flLocked := rfl
@[simp] theorem skipReload_obLocked (s : State) : (skipReload s).obLocked = s.obLocked := rfl
@[simp] theorem skipReload_mem (s : State) : (skipReload s).mem = s.mem := rfl
@[simp] theorem skipReload_rop (s : State) : (skipReload s).rop = s.rop := rfl
@[simp] theorem skipReload_rxIn (s : State) : (skipReload s).rxIn = s.rxIn := rfl
@[simp] theorem skipReload_answers (s : State) : (skipReload s).answers = s.answers := rfl
@[simp] theorem skipReload_calls (s : State) : (skipReload s).calls = s.calls := rfl
@[simp] theorem skipReload_events (s : State) : (skipReload s).events = s.events := rfl

/-! ### beginLoop -/

@[simp] theorem beginLoop_cfg (s : State) : (beginLoop s).cfg = s.cfg := rfl
@[simp] theorem beginLoop_phase (s : State) : (beginLoop s).phase = s.phase := rfl
@[simp] theorem beginLoop_handedOff (s : State) : (beginLoop s).handedOff = s.handedOff := rfl
@[simp] theorem beginLoop_fb (s : State) : (beginLoop s).fb = s.fb := rfl
@[simp] theorem beginLoop_crcPass (s : State) : (beginLoop s).crcPass = s.crcPass := rfl
@[simp] theorem beginLoop_wi (s : State) : (beginLoop s).wi = 0 := rfl
@[simp] theorem beginLoop_u (s : State) : (beginLoop s).u = s.u := rfl
@[simp] theorem beginLoop_e (s : State) : (beginLoop s).e = s.e := rfl
@[simp] theorem beginLoop_w (s : State) : (beginLoop s).w = .ok := rfl
@[simp] theorem beginLoop_p (s : State) : (beginLoop s).p = s.p := rfl
@[simp] theorem beginLoop_r (s : State) : (beginLoop s).r = s.r := rfl
@[simp] theorem beginLoop_l (s : State) : (beginLoop s).l = s.l := rfl
@[simp] theorem beginLoop_crcAcc (s : State) : (beginLoop s).crcAcc = s.crcAcc := rfl
@[simp] theorem beginLoop_flLocked (s : State) : (beginLoop s).flLocked = s.flLocked := rfl
@[simp] theorem beginLoop_obLocked (s : State) : (beginLoop s).obLocked = s.obLocked := rfl
@[simp] theorem beginLoop_mem (s : State) : (beginLoop s).mem = s.mem := rfl
@[simp] theorem beginLoop_rop (s : State) : (beginLoop s).rop = s.rop := rfl
@[simp] theorem beginLoop_rxIn (s : State) : (beginLoop s).rxIn = s.rxIn := rfl
@[simp] theorem beginLoop_answers (s : State) : (beginLoop s).answers = s.answers := rfl
@[simp] theorem beginLoop_calls (s : State) : (beginLoop s).calls = s.calls := rfl
@[simp] theorem beginLoop_events (s : State) : (beginLoop s).events = s.events := rfl

/-! ### The views of the frame buffer see nothing but the buffer -/

@[simp] theorem emit_lenLatch (ev : Event) (s : State) : (emit ev s).lenLatch = s.lenLatch := rfl
@[simp] theorem send_lenLatch (bs : List Byte) (s : State) : (send bs s).lenLatch = s.lenLatch := rfl
@[simp] theorem setPhase_lenLatch (ph : Phase) (s : State) : (setPhase ph s).lenLatch = s.lenLatch := rfl
@[simp] theorem recv_lenLatch (n : Nat) (s : State) : (recv n s).lenLatch = s.lenLatch := rfl
@[simp] theorem checkCrc_lenLatch (s : State) : (checkCrc s).lenLatch = s.lenLatch := rfl
@[simp] theorem emit_payloadLen (ev : Event) (s : State) : (emit ev s).payloadLen = s.payloadLen := rfl
@[simp] theorem send_payloadLen (bs : List Byte) (s : State) : (send bs s).payloadLen = s.payloadLen := rfl
@[simp] theorem setPhase_payloadLen (ph : Phase) (s : State) : (setPhase ph s).payloadLen = s.payloadLen := rfl
@[simp] theorem recv_payloadLen (n : Nat) (s : State) : (recv n s).payloadLen = s.payloadLen := rfl
@[simp] theorem checkCrc_payloadLen (s : State) : (checkCrc s).payloadLen = s.payloadLen := rfl
@[simp] theorem emit_code (ev : Event) (s : State) : (emit ev s).code = s.code := rfl
@[simp] theorem send_code (bs : List Byte) (s : State) : (send bs s).code = s.code := rfl
@[simp] theorem setPhase_code (ph : Phase) (s : State) : (setPhase ph s).code = s.code := rfl
@[simp] theorem recv_code (n : Nat) (s : State) : (recv n s).code = s.code := rfl
@[simp] theorem checkCrc_code (s : State) : (checkCrc s).code = s.code := rfl
@[simp] theorem emit_payload (ev : Event) (s : State) : (emit ev s).payload = s.payload := rfl
@[simp] theorem send_payload (bs : List Byte) (s : State) : (send bs s).payload = s.payload := rfl
@[simp] theorem setPhase_payload (ph : Phase) (s : State) : (setPhase ph s).payload = s.payload := rfl
@[simp] theorem recv_payload (n : Nat) (s : State) : (recv n s).payload = s.payload := rfl
@[simp] theorem checkCrc_payload (s : State) : (checkCrc s).payload = s.payload := rfl
@[simp] theorem emit_covered (ev : Event) (s : State) : (emit ev s).covered = s.covered := rfl
@[simp] theorem send_covered (bs : List Byte) (s : State) : (send bs s).covered = s.covered := rfl
@[simp] theorem setPhase_covered (ph : Phase) (s : State) : (setPhase ph s).covered = s.covered := rfl
@[simp] theorem recv_covered (n : Nat) (s : State) : (recv n s).covered = s.covered := rfl
@[simp] theorem checkCrc_covered (s : State) : (checkCrc s).covered = s.covered := rfl
@[simp] theorem emit_declaredCrc (ev : Event) (s : State) : (emit ev s).declaredCrc = s.declaredCrc := rfl
@[simp] theorem send_declaredCrc (bs : List Byte) (s : State) : (send bs s).declaredCrc = s.declaredCrc := rfl
@[simp] theorem setPhase_declaredCrc (ph : Phase) (s : State) : (setPhase ph s).declaredCrc = s.declaredCrc := rfl
@[simp] theorem recv_declaredCrc (n : Nat) (s : State) : (recv n s).declaredCrc = s.declaredCrc := rfl
@[simp] theorem checkCrc_declaredCrc (s : State) : (checkCrc s).declaredCrc = s.declaredCrc := rfl
@[simp] theorem emit_frame (ev : Event) (s : State) : (emit ev s).frame = s.frame := rfl
@[simp] theorem send_frame (bs : List Byte) (s : State) : (send bs s).frame = s.frame := rfl
@[simp] theorem setPhase_frame (ph : Phase) (s : State) : (setPhase ph s).frame = s.frame := rfl
@[simp] theorem recv_frame (n : Nat) (s : State) : (recv n s).frame = s.frame := rfl
@[simp] theorem checkCrc_frame (s : State) : (checkCrc s).frame = s.frame := rfl
@[simp] theorem emit_fetch (ev : Event) (s : State) : (emit ev s).fetch = s.fetch := rfl
@[simp] theorem send_fetch (bs : List Byte) (s : State) : (send bs s).fetch = s.fetch := rfl
@[simp] theorem setPhase_fetch (ph : Phase) (s : State) : (setPhase ph s).fetch = s.fetch := rfl
@[simp] theorem recv_fetch (n : Nat) (s : State) : (recv n s).fetch = s.fetch := rfl
@[simp] theorem checkCrc_fetch (s : State) : (checkCrc s).fetch = s.fetch := rfl

/-! ### An operation that makes no driver call leaves the driver's answers alone -/

@[simp] theorem emit_answerAt (ev : Event) (s : State) (j : Nat) : (emit ev s).answerAt j = s.answerAt j := rfl
@[simp] theorem send_answerAt (bs : List Byte) (s : State) (j : Nat) : (send bs s).answerAt j = s.answerAt j := rfl
@[simp] theorem setPhase_answerAt (ph : Phase) (s : State) (j : Nat) : (setPhase ph s).answerAt j = s.answerAt j := rfl
@[simp] theorem storeFb_answerAt (pos : Nat) (bs : List Byte) (s : State) (j : Nat) : (storeFb pos bs s).answerAt j = s.answerAt j := rfl
@[simp] theorem recv_answerAt (n : Nat) (s : State) (j : Nat) : (recv n s).answerAt j = s.answerAt j := rfl
@[simp] theorem checkCrc_answerAt (s : State) (j : Nat) : (checkCrc s).answerAt j = s.answerAt j := rfl
@[simp] theorem ropRead_answerAt (s : State) (j : Nat) : (ropRead s).answerAt j = s.answerAt j := rfl
@[simp] theorem xfer_answerAt (t : W32) (s : State) (j : Nat) : (xfer t s).answerAt j = s.answerAt j := rfl
@[simp] theorem beginCycle_answerAt (s : State) (j : Nat) : (beginCycle s).answerAt j = s.answerAt j := rfl
@[simp] theorem skipErase_answerAt (s : State) (j : Nat) : (skipErase s).answerAt j = s.answerAt j := rfl
@[simp] theorem bumpIndex_answerAt (s : State) (j : Nat) : (bumpIndex s).answerAt j = s.answerAt j := rfl
@[simp] theorem skipProgram_answerAt (s : State) (j : Nat) : (skipProgram s).answerAt j = s.answerAt j := rfl
@[simp] theorem skipReload_answerAt (s : State) (j : Nat) : (skipReload s).answerAt j = s.answerAt j := rfl
@[simp] theorem beginLoop_answerAt (s : State) (j : Nat) : (beginLoop s).answerAt j = s.answerAt j := rfl

end Sys2Proof.Machine
end

