-- ==== Sys2Proof/Laws/Ops.lean ====
section
/-! SUPPORT. What each shared operation of Machine/Ops.lean can do, said once. -/

namespace Sys2Proof.Machine

/-! ### Driver answers -/

/-- The answers after a call are the later ones. -/
theorem answerAt_of_used {n : Nat} {s t : State} (ha : t.answers = s.answers.drop n)
    (hc : t.calls = s.calls + n) (k : Nat) : t.answerAt k = s.answerAt (n + k) := by
  simp [State.answerAt, ha, hc, Nat.add_assoc]

@[simp] theorem afterCall_answerAt (s : State) (k : Nat) :
    s.afterCall.answerAt k = s.answerAt (k + 1) := by
  rw [answerAt_of_used (n := 1) (s := s) (by simp) (by simp), Nat.add_comm]

/-- The script after two calls. -/
@[simp] theorem drop_two_answers (q : List Ans) : q.drop 2 = q.tail.tail := by
  match q with
  | [] | [_] | _ :: _ :: _ => rfl

/-- The script after three calls. -/
@[simp] theorem drop_three_answers (q : List Ans) : q.drop 3 = q.tail.tail.tail := by
  match q with
  | [] | [_] | [_, _] | _ :: _ :: _ :: _ => rfl

/-- The script after four calls. -/
@[simp] theorem drop_four_answers (q : List Ans) : q.drop 4 = q.tail.tail.tail.tail := by
  match q with
  | [] | [_] | [_, _] | [_, _, _] | _ :: _ :: _ :: _ :: _ => rfl

/-- Reading an answer sees only the script and the call number. -/
theorem answerAt_congr {s t : State} (ha : t.answers = s.answers) (hc : t.calls = s.calls) (k : Nat) :
    t.answerAt k = s.answerAt k := by simp [State.answerAt, ha, hc]

@[simp] theorem flUnlock_answerAt (s : State) (k : Nat) :
    (flUnlock s).answerAt k = s.answerAt (k + 1) := afterCall_answerAt s k

@[simp] theorem flLock_answerAt (s : State) (k : Nat) :
    (flLock s).answerAt k = s.answerAt (k + 1) := afterCall_answerAt s k

@[simp] theorem flErase_answerAt (req : EraseReq) (s : State) (k : Nat) :
    (flErase req s).answerAt k = s.answerAt (k + 1) := afterCall_answerAt s k

@[simp] theorem flProg_answerAt (a : W32) (v : Byte) (s : State) (k : Nat) :
    (flProg a v s).answerAt k = s.answerAt (k + 1) := afterCall_answerAt s k

@[simp] theorem obUnlock_answerAt (s : State) (k : Nat) :
    (obUnlock s).answerAt k = s.answerAt (k + 1) := afterCall_answerAt s k

@[simp] theorem obLock_answerAt (s : State) (k : Nat) :
    (obLock s).answerAt k = s.answerAt (k + 1) := afterCall_answerAt s k

@[simp] theorem obProg_answerAt (k : SetLevel) (s : State) (j : Nat) :
    (obProg k s).answerAt j = s.answerAt (j + 1) := afterCall_answerAt s j

@[simp] theorem obReload_answerAt (k : SetLevel) (s : State) (j : Nat) :
    (obReload k s).answerAt j = s.answerAt (j + 1) := afterCall_answerAt s j

theorem Ans.eq_fail_of_ne_ok {a : Ans} (h : a ≠ .ok) : a = .fail := by cases a <;> simp_all

/-! ### Transport -/

/-- A receive that delivers takes exactly the first `n` items, all of them bytes. -/
theorem takeBytes_some {n : Nat} {q : List RxItem} {bs : List Byte} {q' : List RxItem}
    (h : takeBytes n q = some (bs, q')) : bs.length = n ∧ q = bs.map .byte ++ q' := by
  induction n generalizing q bs with
  | zero => simp [takeBytes] at h; simp [h]
  | succ n ih =>
    match q with
    | [] => simp [takeBytes] at h
    | .timeout :: q => simp [takeBytes] at h
    | .byte b :: q =>
      simp only [takeBytes] at h
      split at h
      · rename_i bs1 q1 he
        simp only [Option.some.injEq, Prod.mk.injEq] at h
        obtain ⟨rfl, rfl⟩ := h
        obtain ⟨h1, h2⟩ := ih he
        simp [h1, h2]
      · simp at h

/-- Bytes at the head of what the transport will deliver are delivered. -/
theorem takeBytes_append (bs : List Byte) (q : List RxItem) :
    takeBytes bs.length (bs.map .byte ++ q) = some (bs, q) := by
  induction bs with
  | nil => simp [takeBytes]
  | cons b bs ih => simp [takeBytes, ih]

/-- Every answer of `rx(n)` is a timeout or exactly `n` bytes, the head of what was to be delivered. -/
theorem rxAnswer_bytes {n : Nat} {s : State} {bs : List Byte} (h : s.rxAnswer n = .bytes bs) :
    bs.length = n ∧ s.rxIn = bs.map .byte ++ (recv n s).rxIn := by
  simp only [State.rxAnswer] at h
  split at h
  · rename_i bs1 q he
    simp only [RxAnswer.bytes.injEq] at h
    subst h
    simpa [recv, he] using takeBytes_some he
  · simp at h

/-- Bytes that come next are received, and what is behind them is left. -/
theorem recv_of_bytes {s : State} {bs : List Byte} {q : List RxItem}
    (h : s.rxIn = bs.map .byte ++ q) :
    s.rxAnswer bs.length = .bytes bs ∧ (recv bs.length s).rxIn = q := by
  simp [State.rxAnswer, h, takeBytes_append]

/-! ### The frame buffer -/

/-- Storing keeps the buffer's length. -/
theorem storeFb_length (pos : Nat) (bs : List Byte) (s : State) :
    (storeFb pos bs s).fb.length = s.fb.length := by simp; omega

/-- A stored byte that lies inside the buffer is read back; every other byte is as it was. -/
theorem storeFb_fbAt (pos : Nat) (bs : List Byte) (s : State) (h : pos + bs.length ≤ s.fb.length)
    (i : Nat) : (storeFb pos bs s).fbAt i =
      if pos ≤ i ∧ i < pos + bs.length then bs.getD (i - pos) 0 else s.fbAt i := by
  have hp : (s.fb.take pos).length = pos := by simp; omega
  simp only [State.fbAt, storeFb_fb, List.getD_eq_getElem?_getD]
  rw [List.take_of_length_le (by simp; omega)]
  by_cases h1 : i < pos
  · rw [if_neg (by omega), List.append_assoc, List.getElem?_append_left (by omega)]
    rw [List.getElem?_take_of_lt h1]
  · by_cases h2 : i < pos + bs.length
    · rw [if_pos (by omega), List.getElem?_append_left (by simp; omega),
        List.getElem?_append_right (by omega), hp]
    · rw [if_neg (by omega), List.getElem?_append_right (by simp; omega)]
      simp only [List.getElem?_drop, List.length_append, hp]
      congr 2
      omega

/-- What `crc_pass` compares (R94, R126). -/
theorem crcMatches_iff (s : State) : s.crcMatches = true ↔
    crc32 s.cfg.crc (s.fb.take (s.lenLatch - 3)) =
      le32Of (s.fbAt (s.lenLatch - 3)) (s.fbAt (s.lenLatch - 2)) (s.fbAt (s.lenLatch - 1))
        (s.fbAt s.lenLatch) :=
  decide_eq_true_iff

/-! ### The end of a cycle -/

/-- Every outcome but the hand-off begins the next cycle after what it sends (R270). -/
theorem raise_eq {o : CycleOutcome} (h : o ≠ .handedOff) (s : State) :
    raise o s = beginCycle (sendOpt o.reply s) := by cases o <;> first | rfl | exact absurd rfl h

@[simp] theorem raise_handedOff (s : State) : raise .handedOff s = s := rfl

@[simp] theorem raise_replied (s : State) : raise .replied s = beginCycle s := rfl

@[simp] theorem raise_timeout (s : State) : raise .timeout s = beginCycle s := rfl

@[simp] theorem raise_unsupportedCommand (c : Byte) (s : State) :
    raise (.unsupportedCommand c) s = beginCycle s := rfl

@[simp] theorem raise_oversize (n : Nat) (s : State) :
    raise (.oversize n) s = beginCycle (send [0xAB] s) := rfl

@[simp] theorem raise_shortFrame (n : Nat) (s : State) :
    raise (.shortFrame n) s = beginCycle (send [0xAB] s) := rfl

@[simp] theorem raise_integrityFailure (s : State) :
    raise .integrityFailure s = beginCycle (send [0xAB] s) := rfl

@[simp] theorem raise_malformedPayload (c : Byte) (s : State) :
    raise (.malformedPayload c) s = beginCycle (send [0xAB] s) := rfl

end Sys2Proof.Machine
end

