-- ==== Sys2Proof/Laws/PerInstr.lean ====
section
/-! SUPPORT. The family FrameShape: what every command's encoded frame looks like (R90, R91, R92, R105). -/

namespace Sys2Proof.Laws.FrameShape

/-- The frame's first byte is the number of bytes behind it, its second is the command's code, and the
code is in the Supported Command Set. -/
def Statement (i : Instr) : Prop :=
  ∀ (crc : List Byte → W32), i.lengthByteFits = true →
    (encode crc i).length = ((encode crc i).getD 0 0).toNat + 1 ∧
      (encode crc i).getD 1 0 = i.code ∧ i.code ∈ cmdSet

/-- The shape of any frame. -/
theorem of_any (i : Instr) : Statement i := by
  intro crc h
  simp only [Instr.lengthByteFits, decide_eq_true_eq] at h
  have hl := i.payload_length
  refine ⟨?_, ?_, i.code_mem_cmdSet⟩
  · simp [encode, frameBytes, coveredBytes]; omega
  · simp [encode, frameBytes, coveredBytes]

theorem getVersion (x : List Byte) : Statement (.getVersion x) := of_any _
theorem getHelp (x : List Byte) : Statement (.getHelp x) := of_any _
theorem getChipId (x : List Byte) : Statement (.getChipId x) := of_any _
theorem getProtectionStatus (x : List Byte) : Statement (.getProtectionStatus x) := of_any _
theorem jumpToAddress (a : W32) (x : List Byte) : Statement (.jumpToAddress a x) := of_any _
theorem eraseFlash (p c : Byte) (x : List Byte) : Statement (.eraseFlash p c x) := of_any _
theorem memoryWrite (a : W32) (d x : List Byte) : Statement (.memoryWrite a d x) := of_any _
theorem enableRwProtect (x : List Byte) : Statement (.enableRwProtect x) := of_any _
theorem memoryRead (x : List Byte) : Statement (.memoryRead x) := of_any _
theorem getPageProtectionStatus (x : List Byte) : Statement (.getPageProtectionStatus x) := of_any _
theorem readOtp (x : List Byte) : Statement (.readOtp x) := of_any _
theorem disableRwProtect (l : Byte) (x : List Byte) : Statement (.disableRwProtect l x) := of_any _

end Sys2Proof.Laws.FrameShape
end

