-- ==== Sys2Proof/Laws/Sequencers.lean ====
section
/-! SUPPORT. What the erase, write and protection-level sequencers can do, said once each. -/

namespace Sys2Proof.Machine

/-! ### The erase bracket -/

/-- The erase step either makes the one call or only sets its flag (R191). -/
theorem eraseStep_cases (req : EraseReq) (s : State) :
    (s.u = .ok ∧ req.isEmpty = false ∧ eraseStep req s = flErase req s) ∨
      ((s.u = .fail ∨ req.isEmpty = true) ∧ eraseStep req s = skipErase s) := by
  unfold eraseStep
  split
  · exact .inl ⟨by simp_all, by simp_all, rfl⟩
  · right
    refine ⟨?_, rfl⟩
    cases hu : s.u <;> simp_all

/-! ### The program loop -/

/-- The parts of the state the program loop never writes. -/
structure LoopFrame (s t : State) : Prop where
  cfg : t.cfg = s.cfg
  phase : t.phase = s.phase
  handedOff : t.handedOff = s.handedOff
  fb : t.fb = s.fb
  crcPass : t.crcPass = s.crcPass
  u : t.u = s.u
  e : t.e = s.e
  p : t.p = s.p
  r : t.r = s.r
  l : t.l = s.l
  crcAcc : t.crcAcc = s.crcAcc
  flLocked : t.flLocked = s.flLocked
  obLocked : t.obLocked = s.obLocked
  rop : t.rop = s.rop
  rxIn : t.rxIn = s.rxIn

theorem LoopFrame.refl (s : State) : LoopFrame s s := by constructor <;> rfl

theorem LoopFrame.trans {s t v : State} (h : LoopFrame s t) (k : LoopFrame t v) : LoopFrame s v := by
  cases h; cases k; constructor <;> simp_all

theorem countWritten_frame (s : State) : LoopFrame s (countWritten s) := by
  unfold countWritten; split <;> constructor <;> rfl

theorem flProg_frame (a : W32) (v : Byte) (s : State) : LoopFrame s (flProg a v s) := by
  constructor <;> rfl

theorem programLoop_frame (addr : W32) (bs : List Byte) (s : State) :
    LoopFrame s (programLoop addr bs s) := by
  induction bs generalizing s with
  | nil => exact .refl s
  | cons b bs ih =>
    simp only [programLoop]
    split
    · exact ((flProg_frame _ _ _).trans (countWritten_frame _)).trans (ih _)
    · exact .refl s

/-- A failed program call ends the loop (R214). -/
theorem programLoop_stop (addr : W32) (bs : List Byte) {s : State} (h : s.w = .fail) :
    programLoop addr bs s = s := by
  cases bs <;> simp [programLoop, h]

/-- One turn of the loop, with the call's answer `ok` (R213). -/
theorem programLoop_ok (addr : W32) (b : Byte) (bs : List Byte) {s : State} (h : s.w = .ok)
    (ha : s.answerAt 0 = .ok) :
    programLoop addr (b :: bs) s =
      programLoop addr bs (bumpIndex (flProg (addr + BitVec.ofNat 32 s.wi) b s)) := by
  simp [programLoop, h, countWritten, ha]

/-- One turn of the loop, with the call's answer `fail` (R214). -/
theorem programLoop_fail (addr : W32) (b : Byte) (bs : List Byte) {s : State} (h : s.w = .ok)
    (ha : s.answerAt 0 = .fail) :
    programLoop addr (b :: bs) s = flProg (addr + BitVec.ofNat 32 s.wi) b s := by
  simp only [programLoop, h, if_true]
  rw [countWritten, if_neg (by simp [ha])]
  exact programLoop_stop addr bs (by simp [ha])

/-- The loop index never runs past the data (R23). -/
theorem programLoop_wi (addr : W32) (bs : List Byte) (s : State) :
    (programLoop addr bs s).wi ≤ s.wi + bs.length := by
  induction bs generalizing s with
  | nil => simp [programLoop]
  | cons b bs ih =>
    simp only [programLoop]
    split
    · refine Nat.le_trans (ih _) ?_
      simp only [countWritten]
      split
      · simp; omega
      · simp
    · simp

/-- The loop keeps memory's canonical form. -/
theorem programLoop_mem_wf (addr : W32) (bs : List Byte) {s : State} (h : s.mem.wf) :
    (programLoop addr bs s).mem.wf := by
  induction bs generalizing s with
  | nil => exact h
  | cons b bs ih =>
    simp only [programLoop]
    split
    · refine ih ?_
      have hw := Memory.write_wf h (addr + BitVec.ofNat 32 s.wi)
        (match s.answerAt 0 with
          | .ok => b
          | .fail => Config.freeByte s.calls (addr + BitVec.ofNat 32 s.wi).toNat)
      unfold countWritten
      split <;> exact hw
    · exact h

/-- A program address, as a natural number (R18, R213). -/
theorem progAddress (a : W32) (n : Nat) :
    a + BitVec.ofNat 32 n = BitVec.ofNat 32 ((a.toNat + n) % 2 ^ 32) := by
  apply BitVec.eq_of_toNat_eq; simp [BitVec.toNat_add]

/-- All that the loop does when every call answers `ok` (R66, R213). -/
theorem programLoop_all_ok (addr : W32) (d : List Byte) (s : State) (hw : s.w = .ok)
    (ho : s.wi + d.length ≤ 255) (ha : ∀ k, k < d.length → s.answerAt k = .ok) :
    (programLoop addr d s).w = .ok ∧ (programLoop addr d s).wi = s.wi + d.length ∧
      (programLoop addr d s).answers = s.answers.drop d.length ∧
      (programLoop addr d s).calls = s.calls + d.length ∧
      (programLoop addr d s).events = s.events ++ (List.range d.length).map (fun i =>
        .flProg (BitVec.ofNat 32 ((addr.toNat + (s.wi + i)) % 2 ^ 32)) (d.getD i 0) .ok) ∧
      (∀ i, i < d.length →
        (programLoop addr d s).mem.read ((addr.toNat + (s.wi + i)) % 2 ^ 32) = some (d.getD i 0)) ∧
      ∀ a, (∀ i, i < d.length → a ≠ (addr.toNat + (s.wi + i)) % 2 ^ 32) →
        (programLoop addr d s).mem.read a = s.mem.read a := by
  induction d generalizing s with
  | nil => simp [programLoop, hw]
  | cons b d ih =>
    have a0 := ha 0 (by simp)
    rw [programLoop_ok addr b d hw a0]
    obtain ⟨h1, h2, h3, h4, h5, h6, h7⟩ :=
      ih (bumpIndex (flProg (addr + BitVec.ofNat 32 s.wi) b s)) (by simp [a0])
        (by simp at ho ⊢; omega) (by
          intro k hk
          rw [← ha (k + 1) (by simp; omega)]
          exact flProg_answerAt (addr + BitVec.ofNat 32 s.wi) b s _)
    refine ⟨h1, ?_, ?_, ?_, ?_, ?_, ?_⟩
    · rw [h2]; simp; omega
    · rw [h3]; simp
    · rw [h4]; simp; omega
    · rw [h5]; simp [List.range_succ_eq_map, a0, Function.comp_def]
      refine ⟨progAddress _ _, ?_⟩
      intro i _; congr 3; omega
    · intro i hi
      cases i with
      | zero =>
        rw [h7]
        · simp [Memory.read_write, a0]
        · intro i hi; simp at ho; simp; omega
      | succ i =>
        have := h6 i (by simpa using hi)
        rw [show s.wi + (i + 1) = s.wi + 1 + i by omega]
        simpa using this
    · intro a hh
      rw [h7]
      · have := hh 0 (by simp)
        simp [Memory.read_write] at this ⊢
        intro h; exact absurd h this
      · intro i hi
        have := hh (i + 1) (by simpa using hi)
        rw [show s.wi + (i + 1) = s.wi + 1 + i by omega] at this
        simpa using this

/-- All that the loop does when the call for byte `j` is the first to answer `fail` (R66, R214). -/
theorem programLoop_first_fail (addr : W32) (d : List Byte) (s : State) (j : Nat) (hw : s.w = .ok)
    (ho : s.wi + d.length ≤ 255) (hj : j < d.length) (ha : ∀ k, k < j → s.answerAt k = .ok)
    (hf : s.answerAt j = .fail) :
    (programLoop addr d s).w = .fail ∧ (programLoop addr d s).wi = s.wi + j ∧
      (programLoop addr d s).answers = s.answers.drop (j + 1) ∧
      (programLoop addr d s).calls = s.calls + (j + 1) ∧
      (programLoop addr d s).events = s.events ++ (List.range j).map (fun i =>
        .flProg (BitVec.ofNat 32 ((addr.toNat + (s.wi + i)) % 2 ^ 32)) (d.getD i 0) .ok) ++
          [.flProg (BitVec.ofNat 32 ((addr.toNat + (s.wi + j)) % 2 ^ 32)) (d.getD j 0) .fail] ∧
      (∀ i, i < j →
        (programLoop addr d s).mem.read ((addr.toNat + (s.wi + i)) % 2 ^ 32) = some (d.getD i 0)) ∧
      ∀ a, (∀ i, i ≤ j → a ≠ (addr.toNat + (s.wi + i)) % 2 ^ 32) →
        (programLoop addr d s).mem.read a = s.mem.read a := by
  induction d generalizing s j with
  | nil => simp at hj
  | cons b d ih =>
    cases j with
    | zero =>
      rw [programLoop_fail addr b d hw hf]
      refine ⟨by simp [hf], by simp, by simp, by simp, ?_, by simp, ?_⟩
      · simp [hf]; exact progAddress _ _
      · intro a hh
        have := hh 0 (by simp)
        simp [Memory.read_write] at this ⊢
        intro h; exact absurd h this
    | succ j =>
      have a0 := ha 0 (by simp)
      rw [programLoop_ok addr b d hw a0]
      obtain ⟨h1, h2, h3, h4, h5, h6, h7⟩ :=
        ih (bumpIndex (flProg (addr + BitVec.ofNat 32 s.wi) b s)) j (by simp [a0])
          (by simp at ho ⊢; omega) (by simpa using hj) (by
            intro k hk
            rw [← ha (k + 1) (by omega)]
            exact flProg_answerAt (addr + BitVec.ofNat 32 s.wi) b s _)
          (by rw [← hf]; exact flProg_answerAt (addr + BitVec.ofNat 32 s.wi) b s _)
      refine ⟨h1, ?_, ?_, ?_, ?_, ?_, ?_⟩
      · rw [h2]; simp; omega
      · rw [h3]; simp
      · rw [h4]; simp; omega
      · rw [h5]; simp [List.range_succ_eq_map, a0, Function.comp_def]
        refine ⟨progAddress _ _, ?_, ?_⟩
        · intro i _; congr 3; omega
        · congr 3; omega
      · intro i hi
        cases i with
        | zero =>
          rw [h7]
          · simp [Memory.read_write, a0]
          · intro i hi; simp at ho hj; simp; omega
        | succ i =>
          have := h6 i (by simpa using hi)
          rw [show s.wi + (i + 1) = s.wi + 1 + i by omega]
          simpa using this
      · intro a hh
        rw [h7]
        · have := hh 0 (by simp)
          simp [Memory.read_write] at this ⊢
          intro h; exact absurd h this
        · intro i hi
          have := hh (i + 1) (by simpa using hi)
          rw [show s.wi + (i + 1) = s.wi + 1 + i by omega] at this
          simpa using this

/-! ### The option-byte bracket -/

theorem ropProgramStep_cases (k : SetLevel) (s : State) :
    (s.u = .ok ∧ ropProgramStep k s = obProg k s) ∨
      (s.u = .fail ∧ ropProgramStep k s = skipProgram s) := by
  unfold ropProgramStep
  cases s.u <;> simp

theorem ropReloadStep_cases (k : SetLevel) (s : State) :
    (s.u = .ok ∧ s.p = .ok ∧ ropReloadStep k s = obReload k s) ∨
      ((s.u = .fail ∨ s.p = .fail) ∧ ropReloadStep k s = skipReload s) := by
  unfold ropReloadStep
  cases s.u <;> cases s.p <;> simp

end Sys2Proof.Machine
end

