-- ==== Sys2Proof/Laws/Power.lean ====
section
/-! SUPPORT. What a step cut short can leave, said once: it changes no more than the calls it makes may. -/

namespace Sys2Proof.Machine

@[simp] theorem redoAll_nil (k : SetLevel) (s : State) : redoAll k [] s = s := rfl

@[simp] theorem redoAll_cons (k : SetLevel) (ev : Event) (evs : List Event) (s : State) :
    redoAll k (ev :: evs) s = redoAll k evs (redo k ev s) := rfl

@[simp] theorem redoAll_append (k : SetLevel) (evs evs' : List Event) (s : State) :
    redoAll k (evs ++ evs') s = redoAll k evs' (redoAll k evs s) := List.foldl_append

/-- A done list that ends in no option-byte program leaves the level settled. -/
theorem settleLevel_of_last {k : SetLevel} {done : List Event} {s : State}
    (h : ∀ enc, done.getLast? ≠ some (.obProg enc .ok)) : settleLevel k done s = s := by
  unfold settleLevel
  split
  · rename_i enc he
    exact absurd he (h enc)
  · rfl

/-- A reset keeps the flash region's bytes (R55). -/
theorem resetFrom_read {s : State} {a : Nat} (mode : BootMode) (h1 : s.cfg.flashBase.toNat ≤ a)
    (h2 : a ≤ s.cfg.flashEnd.toNat) : (s.resetFrom mode).mem.read a = s.mem.read a :=
  (Memory.read_keepRange _ _ _ _).trans (if_pos ⟨h1, h2⟩)

/-- A word that runs past the end of the address space has no value (log entry 35). -/
theorem Memory.readWord_past_end (m : Memory) {a : Nat} (h : addressLimit < a + 4) :
    m.readWord a = none := if_pos h

/-- The call may change the byte at address `a` (R66, R67). -/
def Event.writes (c : Cfg) : Event → Nat → Prop
  | .flErase req _, a => req.base c ≤ a ∧ a < req.base c + req.size c ∧ a < addressLimit
  | .flProg b _ _, a => a = b.toNat
  | _, _ => False

/-- The call may change the protection level (R68). -/
def Event.isLevelCall : Event → Bool
  | .obProg _ _ => true
  | .obReload _ => true
  | _ => false

/-- What calls that are all among `evs` leave alone. -/
structure CallFrame (k : SetLevel) (evs : List Event) (s t : State) : Prop where
  cfg : t.cfg = s.cfg
  memWf : s.mem.wf → t.mem.wf
  mem : ∀ a, (∀ ev, ev ∈ evs → ¬ ev.writes s.cfg a) → t.mem.read a = s.mem.read a
  rop : t.rop = s.rop ∨ t.rop = k.toLevel
  ropKept : (∀ ev, ev ∈ evs → ev.isLevelCall = false) → t.rop = s.rop

theorem CallFrame.refl (k : SetLevel) (evs : List Event) (s : State) : CallFrame k evs s s :=
  ⟨rfl, id, fun _ _ => rfl, .inl rfl, fun _ => rfl⟩

theorem CallFrame.trans {k : SetLevel} {evs : List Event} {s t v : State} (h : CallFrame k evs s t)
    (g : CallFrame k evs t v) : CallFrame k evs s v where
  cfg := g.cfg.trans h.cfg
  memWf := g.memWf ∘ h.memWf
  mem a ha := (g.mem a (h.cfg ▸ ha)).trans (h.mem a ha)
  rop := by
    obtain e | e := g.rop
    · rw [e]; exact h.rop
    · exact .inr e
  ropKept hl := (g.ropKept hl).trans (h.ropKept hl)

theorem freeLevel_cases (call : Nat) (old : Level) (k : SetLevel) :
    freeLevel call old k = old ∨ freeLevel call old k = k.toLevel := by
  unfold freeLevel; split <;> simp

/-- One call done again changes what that call may change. -/
theorem redo_frame {k : SetLevel} {evs : List Event} {ev : Event} (h : ev ∈ evs) (s : State) :
    CallFrame k evs s (redo k ev s) := by
  cases ev with
  | flErase req r =>
    refine ⟨rfl, fun hw => Memory.fillClipped_wf hw _ _ _, fun a ha => ?_, .inl rfl, fun _ => rfl⟩
    have := ha _ h
    simp only [Event.writes] at this
    simp only [redo, flErase, emit, State.afterCall, Memory.read_fillClipped]
    rw [if_neg this]
  | flProg b v r =>
    refine ⟨rfl, fun hw => Memory.write_wf hw _ _, fun a ha => ?_, .inl rfl, fun _ => rfl⟩
    have := ha _ h
    simp only [Event.writes] at this
    simp only [redo, flProg, emit, State.afterCall, Memory.read_write]
    rw [if_neg this]
  | obProg enc r =>
    refine ⟨rfl, id, fun _ _ => rfl, ?_, fun hl => by simpa [Event.isLevelCall] using hl _ h⟩
    simp only [redo, obProg_rop]
    split
    · exact .inl rfl
    · exact freeLevel_cases _ _ _
  | obReload r =>
    refine ⟨rfl, id, fun _ _ => rfl, ?_, fun hl => by simpa [Event.isLevelCall] using hl _ h⟩
    simp only [redo, obReload_rop]
    split
    · exact .inr rfl
    · exact freeLevel_cases _ _ _
  | _ => exact ⟨rfl, id, fun _ _ => rfl, .inl rfl, fun _ => rfl⟩

/-- An interrupted call changes no more than the call may. -/
theorem cutOff_frame {k : SetLevel} {evs : List Event} {ev : Event} (h : ev ∈ evs) (s : State) :
    CallFrame k evs s (cutOff k ev s) :=
  have g := redo_frame (k := k) h { s with answers := .fail :: s.answers }
  ⟨rfl, g.memWf, g.mem, g.rop, g.ropKept⟩

theorem redoAll_frame {k : SetLevel} {evs done : List Event} (h : ∀ ev, ev ∈ done → ev ∈ evs)
    (s : State) : CallFrame k evs s (redoAll k done s) := by
  induction done generalizing s with
  | nil => exact .refl k evs s
  | cons ev done ih =>
    exact (redo_frame (h ev (by simp)) s).trans (ih (fun e he => h e (by simp [he])) _)

theorem settleLevel_frame {k : SetLevel} {evs done : List Event} (h : ∀ ev, ev ∈ done → ev ∈ evs)
    (s : State) : CallFrame k evs s (settleLevel k done s) := by
  unfold settleLevel
  split
  · rename_i enc he
    exact ⟨rfl, id, fun _ _ => rfl, freeLevel_cases _ _ _, fun hl => by
      simpa [Event.isLevelCall] using hl _ (h _ (List.mem_of_getLast? he))⟩
  · exact .refl k evs s

/-- A step cut short changes no more than the calls of the whole step may. -/
theorem cutShort_frame (n : Nat) (inCall : Bool) (s : State) :
    CallFrame s.askedLevel s.stepEvents s (s.cutShort n inCall) := by
  have hd : ∀ ev, ev ∈ s.stepEvents.take n → ev ∈ s.stepEvents := fun _ => List.mem_of_mem_take
  have h := redoAll_frame (k := s.askedLevel) hd s
  unfold State.cutShort
  split
  · rename_i ev he
    exact h.trans (cutOff_frame (List.mem_of_getElem? he) _)
  · exact h.trans (settleLevel_frame hd _)
  · exact h.trans (settleLevel_frame hd _)

/-! ### What a reset keeps -/

/-- Two states a reset does not tell apart (R55, R290). -/
structure SameBehindAReset (s t : State) : Prop where
  cfg : t.cfg = s.cfg
  mem : t.mem = s.mem
  rop : t.rop = s.rop
  rxIn : t.rxIn = s.rxIn
  answers : t.answers = s.answers
  calls : t.calls = s.calls
  events : t.events = s.events

theorem SameBehindAReset.resetFrom {s t : State} (h : SameBehindAReset s t) (mode : BootMode) :
    t.resetFrom mode = s.resetFrom mode := by
  obtain ⟨h1, h2, h3, h4, h5, h6, h7⟩ := h
  simp only [State.resetFrom, h1, h2, h3, h4, h5, h6, h7]

end Sys2Proof.Machine
end

