-- ==== Sys2Proof/Laws/Step.lean ====
section
/-! SUPPORT. What one step can do in each phase, said once (R26): later proofs cite these and do not
unfold the step. -/

namespace Sys2Proof.Machine

/-! ### The step by phase -/

theorem step_awaitLen {s : State} (h : s.phase = .awaitLen) : step s = awaitLenStep s := by
  simp [step, h]

theorem step_awaitBody {s : State} (h : s.phase = .awaitBody) : step s = awaitBodyStep s := by
  simp [step, h]

theorem step_verify {s : State} (h : s.phase = .verify) : step s = verifyStep s := by
  simp [step, h]

theorem step_dispatch {s : State} (h : s.phase = .dispatch) : step s = dispatchStep s := by
  simp [step, h]

theorem step_handedOff {s : State} (h : s.phase = .handedOff) : step s = .next s := by
  simp [step, h]

/-! ### The command in the buffer -/

/-- With a whole frame in the buffer, the fetch assembles the operands of its code and payload (R22,
R95). -/
theorem fetch_eq_decodeFields {s : State} (hf : s.holdsFrame) (hl : s.fb.length = s.cfg.bufCap) :
    s.fetch = decodeFields s.code s.payload := by
  obtain ⟨h1, h2⟩ := hf
  have hpos : 0 < s.fb.length := by omega
  obtain ⟨n, body, hfb⟩ : ∃ n body, s.fb = n :: body := by
    cases h : s.fb with
    | nil => simp [h] at hpos
    | cons n b => exact ⟨n, b, rfl⟩
  have hn : s.lenLatch = n.toNat := by simp [State.lenLatch, State.fbAt, hfb]
  have hb : body.length + 1 = s.cfg.bufCap := by rw [← hl, hfb]; rfl
  have e : s.frame = n :: body.take n.toNat := by simp [State.frame, hfb, hn]
  have e2 : readFrame s.frame = .ok
      { n := n, code := s.code, payload := s.payload,
        declaredCrc := declaredCrcOf (body.take n.toNat) n.toNat } := by
    rw [e, readFrame, if_neg (by omega), if_neg (by simp; omega)]
    congr 2
    · simp [State.code, State.fbAt, hfb]
      cases body with
      | nil => simp
      | cons b bs =>
        rw [show n.toNat = n.toNat - 1 + 1 by omega]; simp
    · simp [State.payload, hfb, State.payloadLen, hn]
      rw [← List.drop_one, ← List.drop_one, List.drop_take, List.take_take]
      congr 1; omega
  rw [State.fetch, decode, e2]

/-- A run of `a + b` steps is a run of `a` steps and then one of `b`. -/
theorem runSteps_add (a b : Nat) {s t : State} (h : runSteps a s = .next t) :
    runSteps (a + b) s = runSteps b t := by
  induction a generalizing s with
  | zero => cases h; simp
  | succ a ih =>
    rw [show a + 1 + b = a + b + 1 by omega]
    simp only [runSteps] at h ⊢
    split at h
    · exact ih h
    · cases h
    · cases h

/-! ### What each phase can do -/

/-- `AWAIT_LEN`: a timeout, an oversize length byte, an empty frame, or the way to the body. -/
theorem awaitLenStep_cases (s : State) :
    (s.rxAnswer 1 = .timeout ∧ awaitLenStep s = .next (beginCycle (recv 1 s))) ∨
      ∃ b, s.rxAnswer 1 = .bytes [b] ∧
        ((s.cfg.bufCap < (storeFb 0 [b] (recv 1 s)).lenLatch + 1 ∧
            awaitLenStep s = .next (beginCycle (send [0xAB] (storeFb 0 [b] (recv 1 s))))) ∨
          ((storeFb 0 [b] (recv 1 s)).lenLatch + 1 ≤ s.cfg.bufCap ∧
            (storeFb 0 [b] (recv 1 s)).lenLatch = 0 ∧
            awaitLenStep s = .next (beginCycle (send [0xAB] (storeFb 0 [b] (recv 1 s))))) ∨
          ((storeFb 0 [b] (recv 1 s)).lenLatch + 1 ≤ s.cfg.bufCap ∧
            (storeFb 0 [b] (recv 1 s)).lenLatch ≠ 0 ∧
            awaitLenStep s = .next (setPhase .awaitBody (storeFb 0 [b] (recv 1 s))))) := by
  rcases hr : s.rxAnswer 1 with _ | bs
  · exact .inl ⟨rfl, by simp [awaitLenStep, hr]⟩
  · obtain ⟨hl, -⟩ := rxAnswer_bytes hr
    match bs, hl with
    | [b], _ =>
      refine .inr ⟨b, rfl, ?_⟩
      by_cases h1 : s.cfg.bufCap < (storeFb 0 [b] (recv 1 s)).lenLatch + 1
      · exact .inl ⟨h1, by simp [awaitLenStep, hr, h1]⟩
      · by_cases h2 : (storeFb 0 [b] (recv 1 s)).lenLatch = 0
        · exact .inr (.inl ⟨by omega, h2, by
            simp only [awaitLenStep, hr]; rw [if_neg h1, if_pos h2, raise_shortFrame]⟩)
        · exact .inr (.inr ⟨by omega, h2, by
            simp only [awaitLenStep, hr]; rw [if_neg h1, if_neg h2]⟩)

/-- `AWAIT_BODY`: a stray state stops; else a timeout, a short frame, or the way to the verifier. -/
theorem awaitBodyStep_cases (s : State) :
    ((s.lenLatch = 0 ∨ s.cfg.bufCap < s.lenLatch + 1) ∧
        awaitBodyStep s = .fault (.phaseBroken .awaitBody)) ∨
      (s.lenLatch ≠ 0 ∧ s.lenLatch + 1 ≤ s.cfg.bufCap ∧
        ((s.rxAnswer s.lenLatch = .timeout ∧
            awaitBodyStep s = .next (beginCycle (recv s.lenLatch s))) ∨
          ∃ bs, s.rxAnswer s.lenLatch = .bytes bs ∧ bs.length = s.lenLatch ∧
            ((s.lenLatch < 5 ∧ awaitBodyStep s =
                .next (beginCycle (send [0xAB] (storeFb 1 bs (recv s.lenLatch s))))) ∨
              (5 ≤ s.lenLatch ∧ awaitBodyStep s =
                .next (setPhase .verify (storeFb 1 bs (recv s.lenLatch s))))))) := by
  by_cases h : s.lenLatch = 0 ∨ s.cfg.bufCap < s.lenLatch + 1
  · exact .inl ⟨h, by rw [awaitBodyStep, if_pos h]⟩
  · refine .inr ⟨by tauto, by omega, ?_⟩
    rcases hr : s.rxAnswer s.lenLatch with _ | bs
    · exact .inl ⟨rfl, by rw [awaitBodyStep, if_neg h, hr]; rfl⟩
    · refine .inr ⟨bs, rfl, (rxAnswer_bytes hr).1, ?_⟩
      by_cases h5 : s.lenLatch < 5
      · exact .inl ⟨h5, by
          rw [awaitBodyStep, if_neg h, hr]; simp only; rw [if_pos h5, raise_shortFrame]⟩
      · exact .inr ⟨by omega, by rw [awaitBodyStep, if_neg h, hr]; simp only; rw [if_neg h5]⟩

/-- `VERIFY`: a stray state stops; else the checksum decides. -/
theorem verifyStep_cases (s : State) :
    ((s.lenLatch < 5 ∨ s.cfg.bufCap < s.lenLatch + 1) ∧
        verifyStep s = .fault (.phaseBroken .verify)) ∨
      (s.holdsFrame ∧
        ((s.crcMatches = true ∧ verifyStep s = .next (setPhase .dispatch (checkCrc s))) ∨
          (s.crcMatches = false ∧ verifyStep s = .next (beginCycle (send [0xAB] (checkCrc s)))))) := by
  by_cases h : s.lenLatch < 5 ∨ s.cfg.bufCap < s.lenLatch + 1
  · exact .inl ⟨h, by rw [verifyStep, if_pos h]⟩
  · refine .inr ⟨⟨by omega, by omega⟩, ?_⟩
    rw [verifyStep, if_neg h]
    rcases hc : s.crcMatches with _ | _
    · exact .inr ⟨rfl, by simp [hc]⟩
    · exact .inl ⟨rfl, by simp [hc]⟩

/-- `DISPATCH`: a stray state stops; else the lookup and the payload shape decide. -/
theorem dispatchStep_cases (s : State) :
    ((s.crcPass = false ∨ s.lenLatch < 5 ∨ s.cfg.bufCap < s.lenLatch + 1) ∧
        dispatchStep s = .fault (.phaseBroken .dispatch)) ∨
      (s.crcPass = true ∧ s.holdsFrame ∧
        ((s.code ∉ cmdSet ∧ dispatchStep s = .next (beginCycle s)) ∨
          (s.code ∈ cmdSet ∧ payloadShapeOk s.code s.payload = false ∧
            dispatchStep s = .next (beginCycle (send [0xAB] s))) ∨
          (s.code ∈ cmdSet ∧ payloadShapeOk s.code s.payload = true ∧
            dispatchStep s = .next (setPhase .exec s)))) := by
  by_cases h : s.crcPass = false ∨ s.lenLatch < 5 ∨ s.cfg.bufCap < s.lenLatch + 1
  · exact .inl ⟨h, by rw [dispatchStep, if_pos h]⟩
  · refine .inr ⟨by simpa using (not_or.mp h).1, ⟨by omega, by omega⟩, ?_⟩
    rw [dispatchStep, if_neg h]
    by_cases h1 : s.code ∉ cmdSet
    · exact .inl ⟨h1, by rw [if_pos h1]; rfl⟩
    · rw [if_neg h1]
      rcases h2 : payloadShapeOk s.code s.payload with _ | _
      · exact .inr (.inl ⟨by simpa using h1, rfl, by simp⟩)
      · exact .inr (.inr ⟨by simpa using h1, rfl, by simp⟩)

end Sys2Proof.Machine
end

