-- ==== Sys2Proof/Tests/Slice0.lean ====
section
/-! SUPPORT. The model's own tests, few and small: ill-formed terms that WellFormed refuses, frames written
out from the spec that decode to their commands, one step per command with the result that
95_test_vectors.md gives, and for every statement with hypotheses a state and operands that meet them. -/

namespace Sys2Proof.Tests

open Sys2Proof Sys2Proof.Machine

/-! ### Helpers -/

/-- `TESTCFG` with CRC-A, a frame buffer of 16 bytes and pages of 4 bytes, so that the kernel has little to
compute. -/
def tcfg : Cfg := { Config.testCfg with bufCap := 16, crc := .crcA, pageSize := 4 }

/-- The reset state under `tcfg`. -/
def base : State := { State.reset with cfg := tcfg, fb := List.replicate 16 0 }

/-- `base` with a transport that will deliver the given items. -/
def hears (q : List RxItem) : State := { base with rxIn := q }

/-- `base` with the given bytes in the frame buffer, in a given phase. -/
def holding (ph : Phase) (pass : Bool) (bs : List Byte) : State :=
  { base with fb := (bs ++ List.replicate (16 - bs.length) 0).take 16, phase := ph, crcPass := pass }

/-- A verified frame whose handler runs next, and what the driver will answer. -/
def ready (bs : List Byte) (q : List Ans) : State := { holding .exec true bs with answers := q }

/-- What is left of an outcome when only the events matter. -/
def evs : Host.Outcome State Fault Refusal → List Event
  | .next t => t.events
  | .fault _ => []
  | .refused _ => []

/-- The state of an outcome, or `base`. -/
def out : Host.Outcome State Fault Refusal → State
  | .next t => t
  | .fault _ => base
  | .refused _ => base

/-! ### WellFormed: one ill-formed term for each check -/

theorem test_lengthByteFits_refuses :
    (Instr.readOtp (List.replicate 251 0)).lengthByteFits = false := by decide +kernel

theorem test_bufferFits_refuses :
    (Instr.memoryWrite 0 (List.replicate 190 0) []).bufferFits 200 = false := by decide +kernel

theorem test_wf_accepts_the_largest :
    (Instr.memoryWrite 0 (List.replicate 189 0) []).wf 200 = true := by decide +kernel

theorem test_bufCapOk_refuses :
    ({ Config.testCfg with bufCap := 5 }).bufCapOk = false ∧
      ({ Config.testCfg with bufCap := 257 }).bufCapOk = false := by decide

theorem test_ramOk_refuses :
    ({ Config.testCfg with ramBase := 0x20005000 }).ramOk = false := by decide

theorem test_flashOk_refuses :
    ({ Config.testCfg with flashEnd := 0x07FFFFFF }).flashOk = false := by decide

theorem test_disjointOk_refuses :
    ({ Config.testCfg with flashEnd := 0x20000000 }).disjointOk = false := by decide

theorem test_maxPageOk_refuses :
    ({ Config.testCfg with maxPage := 0 }).maxPageOk = false ∧
      ({ Config.testCfg with maxPage := 256 }).maxPageOk = false := by decide

theorem test_chipIdOk_refuses :
    ({ Config.testCfg with chipId := [] }).chipIdOk = false ∧
      ({ Config.testCfg with chipId := List.replicate 256 0 }).chipIdOk = false := by decide +kernel

theorem test_encOk_refuses : ({ Config.testCfg with ropEnc1 := 0 }).encOk = false := by decide

theorem test_testCfg_wf : Config.testCfg.wf = true ∧ tcfg.wf = true := by decide

/-! ### Decoding: frames of 95_test_vectors.md under CRC-A -/

/-- V-Q1 and V-Q2: the second carries payload bytes GET_VERSION does not use (R102). -/
theorem test_decode_getVersion :
    decode [0x05, 0x10, 0xDE, 0xF6, 0x19, 0x21] = .instr (.getVersion []) ∧
      decode [0x08, 0x10, 0xAA, 0xBB, 0xCC, 0x1D, 0xCA, 0x47, 0xE7] =
        .instr (.getVersion [0xAA, 0xBB, 0xCC]) := by decide

/-- V-Q4. -/
theorem test_decode_getHelp :
    decode [0x05, 0x11, 0x48, 0xC6, 0x1E, 0x56] = .instr (.getHelp []) := by decide

/-- V-Q5. -/
theorem test_decode_getChipId :
    decode [0x05, 0x12, 0xF2, 0x97, 0x17, 0xCF] = .instr (.getChipId []) := by decide

/-- V-Q6. -/
theorem test_decode_getProtectionStatus :
    decode [0x05, 0x13, 0x64, 0xA7, 0x10, 0xB8] = .instr (.getProtectionStatus []) := by decide

/-- V-J1 and V-J12: the address is little-endian. -/
theorem test_decode_jumpToAddress :
    decode [0x09, 0x14, 0x00, 0x80, 0x00, 0x08, 0x9B, 0x52, 0x43, 0xEC] =
        .instr (.jumpToAddress 0x08008000 []) ∧
      decode [0x0A, 0x14, 0x00, 0x00, 0x00, 0x10, 0x99, 0x0C, 0xF9, 0x4A, 0x62] =
        .instr (.jumpToAddress 0x10000000 [0x99]) := by decide

/-- V-E1. -/
theorem test_decode_eraseFlash :
    decode [0x07, 0x15, 0x02, 0x03, 0x06, 0xB5, 0x41, 0x0D] = .instr (.eraseFlash 0x02 0x03 []) := by
  decide

/-- V-W1 and V-W9: the second has two bytes behind its data. -/
theorem test_decode_memoryWrite :
    decode [0x0E, 0x16, 0x00, 0x80, 0x00, 0x08, 0x04, 0xDE, 0xAD, 0xBE, 0xEF, 0x74, 0xB6, 0x71, 0x04] =
        .instr (.memoryWrite 0x08008000 [0xDE, 0xAD, 0xBE, 0xEF] []) ∧
      decode [0x0D, 0x16, 0x00, 0x80, 0x00, 0x08, 0x01, 0x77, 0x88, 0x99, 0x1D, 0x59, 0x43, 0xE2] =
        .instr (.memoryWrite 0x08008000 [0x77] [0x88, 0x99]) := by decide

/-- V-U1 to V-U4. -/
theorem test_decode_without_behaviour :
    decode [0x05, 0x17, 0x7D, 0x63, 0x7D, 0xBF] = .instr (.enableRwProtect []) ∧
      decode [0x05, 0x18, 0xEC, 0x7E, 0xC2, 0x2F] = .instr (.memoryRead []) ∧
      decode [0x05, 0x19, 0x7A, 0x4E, 0xC5, 0x58] = .instr (.getPageProtectionStatus []) ∧
      decode [0x05, 0x20, 0x72, 0xC6, 0xC0, 0x07] = .instr (.readOtp []) := by decide

/-- V-P1. -/
theorem test_decode_disableRwProtect :
    decode [0x06, 0x21, 0x01, 0xD5, 0x80, 0x54, 0x00] = .instr (.disableRwProtect 0x01 []) := by decide

/-- V-F10, V-F12, V-F13, V-F14, V-F6: what is no command is rejected by name. -/
theorem test_decode_rejects :
    decode [0x05, 0x22, 0x5E, 0xA7, 0xCE, 0xE9] = .rejected (.unknownCode 0x22) ∧
      decode [0x05, 0x1A, 0xC0, 0x1F, 0xCC, 0xC1] = .rejected (.unknownCode 0x1A) ∧
      decode [0x08, 0x14, 0x00, 0x80, 0x00, 0x5F, 0xE4, 0xAA, 0x12] =
        .rejected (.payloadTooShort 0x14) ∧
      decode [0x0C, 0x16, 0x00, 0x80, 0x00, 0x08, 0x04, 0x11, 0x22, 0x09, 0x29, 0x5D, 0xE0] =
        .rejected (.payloadTooShort 0x16) ∧
      decode [0x04, 0x10, 0x01, 0x02, 0x03] = .rejected (.shortFrame 0x04) ∧
      decode [0x05, 0x10] = .rejected (.truncated 0x05) ∧ decode [] = .rejected .noLengthByte := by
  decide

/-- The encoder gives V-E1's frame, CRC field included. -/
theorem test_encode_eraseFlash :
    encode crcA (.eraseFlash 0x02 0x03 []) = [0x07, 0x15, 0x02, 0x03, 0x06, 0xB5, 0x41, 0x0D] := by
  decide +kernel

/-- The opcode table's rows have 8 bits, the code byte. -/
theorem test_decodeTableWord :
    decodeTableWord 8 0x16 = some (.memoryWrite 0 [] []) ∧
      decodeTableWord 8 0x21 = some (.disableRwProtect 0 []) ∧ decodeTableWord 8 0x1A = none := by
  decide

/-! ### Checksums: the check values of 93_implementation_defined.md and the frames of the vectors -/

theorem test_crcA : crcA [0x05, 0x10] = 0x2119F6DE ∧ crcA [0x05, 0x11] = 0x561EC648 := by
  decide +kernel

theorem test_crcB : crcB [0x05, 0x10] = 0x4CEC8427 ∧ crcB [0x05, 0x20] = 0x98DEE9B7 := by
  decide +kernel

/-! ### The frame pipeline, one step each -/

/-- V-F1. -/
theorem test_timeout : evs (step (hears [.timeout])) = [.rx 1 .timeout] := by decide

/-- V-F2 at this buffer's limit: no body is read. -/
theorem test_oversize : evs (step (hears [.byte 16])) = [.rx 1 (.bytes [16]), .tx [0xAB]] := by decide

/-- V-F3 at this buffer's limit: the body is asked for. -/
theorem test_largest_length :
    (out (step (hears [.byte 15]))).outstandingRx = some 15 := by decide

/-- V-F5. -/
theorem test_empty_frame : evs (step (hears [.byte 0])) = [.rx 1 (.bytes [0]), .tx [0xAB]] := by decide

/-- V-F7: a body of which one byte arrives. -/
theorem test_body_timeout :
    evs (step { holding .awaitBody false [5] with rxIn := [.byte 0x10, .timeout] }) =
      [.rx 5 .timeout] := by decide

/-- V-F4. -/
theorem test_short_body :
    evs (step { holding .awaitBody false [3] with rxIn := [.byte 0xAA, .byte 0xBB, .byte 0xCC] }) =
      [.rx 3 (.bytes [0xAA, 0xBB, 0xCC]), .tx [0xAB]] := by decide

/-- V-Q2 passes the verifier. -/
theorem test_verify_passes :
    evs (step (holding .verify false [0x08, 0x10, 0xAA, 0xBB, 0xCC, 0x1D, 0xCA, 0x47, 0xE7])) =
      [.crc [0x08, 0x10, 0xAA, 0xBB, 0xCC] 0xE747CA1D] := by decide +kernel

/-- V-Q3: one flipped bit draws the NACK. -/
theorem test_verify_fails :
    evs (step (holding .verify false [0x08, 0x10, 0xAA, 0xAB, 0xCC, 0x1D, 0xCA, 0x47, 0xE7])) =
      [.crc [0x08, 0x10, 0xAA, 0xAB, 0xCC] 0xAD85D84C, .tx [0xAB]] := by decide +kernel

/-- V-F10: silence. -/
theorem test_unknown_code_is_silent :
    evs (step (holding .dispatch true [0x05, 0x22, 0x5E, 0xA7, 0xCE, 0xE9])) = [] := by decide

/-- V-F17: a MEMORY_WRITE without its length byte. -/
theorem test_malformed_payload :
    evs (step (holding .dispatch true [0x09, 0x16, 0x00, 0x80, 0x00, 0x08, 0xFB, 0x01, 0x83, 0x96])) =
      [.tx [0xAB]] := by decide

/-! ### The commands, one step each from their frames -/

/-- V-Q1. -/
theorem test_getVersion :
    evs (step (ready [0x05, 0x10, 0xDE, 0xF6, 0x19, 0x21] [])) =
      [.tx [0xCD, 0x04, 0x64, 0x01, 0x02, 0x03]] := by decide

/-- V-Q4. -/
theorem test_getHelp :
    evs (step (ready [0x05, 0x11, 0x48, 0xC6, 0x1E, 0x56] [])) =
      [.tx [0xCD, 0x0C, 0x10, 0x11, 0x12, 0x13, 0x14, 0x15, 0x16, 0x17, 0x18, 0x19, 0x20, 0x21]] := by
  decide

/-- V-Q5. -/
theorem test_getChipId :
    evs (step (ready [0x05, 0x12, 0xF2, 0x97, 0x17, 0xCF] [])) = [.tx [0xCD, 0x02, 0x10, 0x04]] := by
  decide

/-- V-Q7. -/
theorem test_getProtectionStatus :
    evs (step { ready [0x05, 0x13, 0x64, 0xA7, 0x10, 0xB8] [] with rop := .level2 }) =
      [.ropRead .level2, .tx [0xCD, 0x01, 0x02]] := by decide

/-- V-J3: the last flash byte is valid and the target lies one past it. -/
theorem test_jump_valid :
    evs (step (ready [0x09, 0x14, 0xFF, 0xFF, 0x00, 0x08, 0x07, 0x7B, 0xEB, 0x6D] [])) =
      [.tx [0xCD, 0x01, 0x01], .xfer 0x08010000] := by decide

/-- V-J4. -/
theorem test_jump_invalid :
    evs (step (ready [0x09, 0x14, 0x00, 0x00, 0x01, 0x08, 0x5A, 0x78, 0x6D, 0x14] [])) =
      [.tx [0xCD, 0x01, 0x00]] := by decide

/-- V-E6: the range is clamped. -/
theorem test_erase_clamps :
    evs (step (ready [0x07, 0x15, 0x3E, 0x0A, 0x5D, 0x74, 0x6E, 0x07] [.ok, .ok, .ok])) =
      [.flUnlock .ok, .flErase (.pages 62 2) .ok, .flLock .ok, .tx [0xCD, 0x01, 0x01]] := by decide

/-- V-E3: the count check comes before the sentinel. -/
theorem test_erase_counts_first :
    evs (step (ready [0x07, 0x15, 0xFF, 0x41, 0x4A, 0x0A, 0x81, 0x34] [])) =
      [.tx [0xCD, 0x01, 0x00]] := by decide

/-- V-W3: the second program call fails. -/
theorem test_write_stops :
    evs (step (ready [0x0D, 0x16, 0x00, 0x80, 0x00, 0x08, 0x03, 0x11, 0x22, 0x33, 0x91, 0x38, 0xFB, 0x66]
        [.ok, .ok, .fail, .ok])) =
      [.flUnlock .ok, .flProg 0x08008000 0x11 .ok, .flProg 0x08008001 0x22 .fail, .flLock .ok,
        .tx [0xCD, 0x01, 0x00]] := by decide

/-- V-W7: bytes past the end of the region are programmed too, and read back. -/
theorem test_write_past_the_end :
    (out (step (ready
        [0x0E, 0x16, 0xFE, 0xFF, 0x00, 0x08, 0x04, 0x01, 0x02, 0x03, 0x04, 0xD7, 0x75, 0x95, 0xE5]
        [.ok, .ok, .ok, .ok, .ok, .ok]))).mem =
      [(0x0800FFFE, 0x01), (0x0800FFFF, 0x02), (0x08010000, 0x03), (0x08010001, 0x04)] := by decide

/-- V-P8: the reload fails. -/
theorem test_level_reload_fails :
    evs (step (ready [0x06, 0x21, 0x01, 0xD5, 0x80, 0x54, 0x00] [.ok, .ok, .fail, .ok])) =
      [.obUnlock .ok, .obProg 1 .ok, .obReload .fail, .obLock .ok, .tx [0xCD, 0x01, 0x00]] := by decide

/-- V-P1: the level takes effect. -/
theorem test_level_changes :
    (out (step (ready [0x06, 0x21, 0x01, 0xD5, 0x80, 0x54, 0x00] [.ok, .ok, .ok, .ok]))).rop =
      .level1 := by decide

/-- V-P10: level 2 is refused whatever follows. -/
theorem test_level_two :
    evs (step (ready [0x08, 0x21, 0x02, 0x00, 0x01, 0x7F, 0x90, 0x5F, 0x9A] [])) =
      [.tx [0xCD, 0x01, 0x00]] := by decide

/-- V-U1 and V-U2. -/
theorem test_unimplemented :
    evs (step (ready [0x05, 0x17, 0x7D, 0x63, 0x7D, 0xBF] [])) = [.tx [0xCD, 0x00]] ∧
      evs (step (ready [0x05, 0x18, 0xEC, 0x7E, 0xC2, 0x2F] [])) = [.tx [0xCD, 0x00]] := by decide

/-- V-U3 and V-U4. -/
theorem test_unimplemented_more :
    evs (step (ready [0x05, 0x19, 0x7A, 0x4E, 0xC5, 0x58] [])) = [.tx [0xCD, 0x00]] ∧
      evs (step (ready [0x05, 0x20, 0x72, 0xC6, 0xC0, 0x07] [])) = [.tx [0xCD, 0x00]] := by decide

/-- V-E1's effect on memory (R67): the bytes of pages 2 to 4, of 4 bytes each here. -/
theorem test_erase_effect :
    (out (step (ready [0x07, 0x15, 0x02, 0x03, 0x06, 0xB5, 0x41, 0x0D] [.ok, .ok, .ok]))).mem =
      (List.range' 0x08000008 12).map (fun a => (a, 0xFF)) := by decide

/-- `withFetchWord` after reset runs the command of the table word: 0x20, READ_OTP. -/
theorem test_withFetchWord :
    evs (step (State.reset.withFetchWord 8 0x20)) = [.tx [0xCD, 0x00]] := by decide

/-! ### Witnesses: states and operands that meet the hypotheses of each statement -/

/-- Every field of the invariant that does not depend on the phase, for a state over `tcfg`. -/
theorem base_inv : Inv base := ⟨by decide, by decide, by decide, by decide, by decide, rfl, rfl⟩

theorem hears_inv (q : List RxItem) : Inv (hears q) :=
  ⟨base_inv.cfgOk, by rfl, base_inv.memWf, by simp [hears, base, State.reset],
    by simp [hears, base, State.reset], rfl, rfl⟩

/-- DecodeOfEncodeIsTheCommand, at the largest payload of the largest buffer and at the smallest buffer. -/
theorem witness_DecodeOfEncodeIsTheCommand :
    (Instr.readOtp (List.replicate 250 0)).wf 256 = true ∧ (Instr.getVersion []).wf 6 = true := by
  decide +kernel

/-- EncodeOfDecodeIsTheCoveredRegion. -/
theorem witness_EncodeOfDecodeIsTheCoveredRegion :
    decode [0x06, 0x21, 0x01, 0xD5, 0x80, 0x54, 0x00] = .instr (.disableRwProtect 0x01 []) := by decide

/-- OperandsAreTheNamedBytes: JUMP_TO_ADDRESS. -/
theorem witness_OperandsAreTheNamedBytes_jump :
    (ready [9, 0x14, 1, 2, 3, 4] []).holdsFrame ∧ (ready [9, 0x14, 1, 2, 3, 4] []).fb.length = 16 ∧
      (ready [9, 0x14, 1, 2, 3, 4] []).fetch = .instr (.jumpToAddress 0x04030201 []) := by
  refine ⟨⟨?_, ?_⟩, ?_, ?_⟩ <;> decide

/-- OperandsAreTheNamedBytes: ERASE_FLASH. -/
theorem witness_OperandsAreTheNamedBytes_erase :
    (ready [7, 0x15, 1, 2] []).holdsFrame ∧ (ready [7, 0x15, 1, 2] []).fb.length = 16 ∧
      (ready [7, 0x15, 1, 2] []).fetch = .instr (.eraseFlash 1 2 []) := by
  refine ⟨⟨?_, ?_⟩, ?_, ?_⟩ <;> decide

/-- OperandsAreTheNamedBytes: MEMORY_WRITE, with data and without. -/
theorem witness_OperandsAreTheNamedBytes_write :
    (ready [12, 0x16, 1, 2, 3, 4, 2, 5, 6] []).holdsFrame ∧
      (ready [12, 0x16, 1, 2, 3, 4, 2, 5, 6] []).fb.length = 16 ∧
      (ready [12, 0x16, 1, 2, 3, 4, 2, 5, 6] []).fetch = .instr (.memoryWrite 0x04030201 [5, 6] []) ∧
      (ready [10, 0x16, 1, 2, 3, 4, 0] []).fetch = .instr (.memoryWrite 0x04030201 [] []) := by
  refine ⟨⟨?_, ?_⟩, ?_, ?_, ?_⟩ <;> decide

/-- OperandsAreTheNamedBytes: DISABLE_RW_PROTECT, and a command without operands. -/
theorem witness_OperandsAreTheNamedBytes_level :
    (ready [6, 0x21, 1] []).holdsFrame ∧ (ready [6, 0x21, 1] []).fb.length = 16 ∧
      (ready [6, 0x21, 1] []).fetch = .instr (.disableRwProtect 1 []) ∧
      (ready [5, 0x10] []).holdsFrame ∧ (ready [5, 0x10] []).fetch = .instr (.getVersion []) := by
  refine ⟨⟨?_, ?_⟩, ?_, ?_, ⟨?_, ?_⟩, ?_⟩ <;> decide

/-- StepRunsTheDecodedCommand. -/
theorem witness_StepRunsTheDecodedCommand :
    (ready [5, 0x10] []).phase = .exec ∧ (ready [5, 0x10] []).fetch = .instr (.getVersion []) := by decide

/-- StepRunsTheEncodedCommand. -/
theorem witness_StepRunsTheEncodedCommand :
    (ready (encode (fun _ => 0) (.eraseFlash 2 3 [])) []).phase = .exec ∧
      (Instr.eraseFlash 2 3 []).wf tcfg.bufCap = true ∧
      (ready (encode (fun _ => 0) (.eraseFlash 2 3 [])) []).fb =
        encode (fun _ => 0) (.eraseFlash 2 3 []) ++ List.replicate 8 0 := by decide

/-- LengthByteTimeoutIsSilent. -/
theorem witness_LengthByteTimeoutIsSilent :
    Inv (hears [.timeout]) ∧ (hears [.timeout]).phase = .awaitLen ∧
      (hears [.timeout]).rxAnswer 1 = .timeout := ⟨hears_inv _, rfl, rfl⟩

/-- LengthByteDecidesTheBody: empty, smallest, largest that fits, smallest that does not, largest. -/
theorem witness_LengthByteDecidesTheBody (b : Byte) (_ : b ∈ ([0, 1, 15, 16, 255] : List Byte)) :
    Inv (hears [.byte b]) ∧ (hears [.byte b]).phase = .awaitLen ∧
      (hears [.byte b]).rxAnswer 1 = .bytes [b] := ⟨hears_inv _, rfl, rfl⟩

/-- A latched length byte, and what the transport will deliver. -/
def latched (n : Byte) (q : List RxItem) : State := { holding .awaitBody false [n] with rxIn := q }

theorem latched_inv {n : Byte} (q : List RxItem) (h1 : 1 ≤ n.toNat) (h2 : n.toNat + 1 ≤ 16) :
    Inv (latched n q) :=
  ⟨base_inv.cfgOk, by rfl, base_inv.memWf, by simp [latched, holding, base, State.reset],
    by simp [latched, holding, base, State.reset], h1, h2, rfl⟩

/-- BodyIsStoredOrDiscarded: a timeout, a body of 4 bytes and a body of 5. -/
theorem witness_BodyIsStoredOrDiscarded :
    (Inv (latched 5 []) ∧ (latched 5 []).phase = .awaitBody ∧
        (latched 5 []).rxAnswer (latched 5 []).lenLatch = .timeout) ∧
      (Inv (latched 4 (List.replicate 4 (.byte 7))) ∧
        (latched 4 (List.replicate 4 (.byte 7))).rxAnswer 4 = .bytes [7, 7, 7, 7]) ∧
      Inv (latched 5 (List.replicate 5 (.byte 7))) ∧
        (latched 5 (List.replicate 5 (.byte 7))).rxAnswer 5 = .bytes [7, 7, 7, 7, 7] :=
  ⟨⟨latched_inv _ (by decide) (by decide), rfl, rfl⟩,
    ⟨latched_inv _ (by decide) (by decide), rfl⟩, latched_inv _ (by decide) (by decide), rfl⟩

/-- V-Q1's frame, and V-F9's: its CRC field with a flipped bit. -/
def goodFrame : List Byte := [0x05, 0x10, 0xDE, 0xF6, 0x19, 0x21]

/-- V-F9's frame. -/
def badFrame : List Byte := [0x05, 0x10, 0xDF, 0xF6, 0x19, 0x21]

theorem holding_frame (ph : Phase) (pass : Bool) :
    (holding ph pass goodFrame).holdsFrame ∧ (holding ph pass badFrame).holdsFrame :=
  ⟨⟨(by decide : 5 ≤ 5), (by decide : 6 ≤ 16)⟩, (by decide : 5 ≤ 5), (by decide : 6 ≤ 16)⟩

theorem goodFrame_matches (ph : Phase) (pass : Bool) :
    (holding ph pass goodFrame).crcMatches = true :=
  (by decide +kernel : decide (crc32 .crcA [0x05, 0x10] = le32Of 0xDE 0xF6 0x19 0x21) = true)

/-- ChecksumDecidesTheGate: a frame that passes and one that does not. -/
theorem witness_ChecksumDecidesTheGate :
    ((holding .verify false goodFrame).holdsFrame ∧ (holding .verify false goodFrame).phase = .verify ∧
        (holding .verify false goodFrame).crcMatches = true) ∧
      (holding .verify false badFrame).holdsFrame ∧ (holding .verify false badFrame).phase = .verify ∧
        (holding .verify false badFrame).crcMatches = false :=
  ⟨⟨(holding_frame _ _).1, rfl, goodFrame_matches _ _⟩, (holding_frame _ _).2, rfl, by decide +kernel⟩

/-- DispatcherLooksUpAndChecksShape: an unknown code, a short payload, and a command. -/
theorem witness_DispatcherLooksUpAndChecksShape :
    ((holding .dispatch true [5, 0x22]).holdsFrame ∧ (holding .dispatch true [5, 0x22]).crcPass = true ∧
        (holding .dispatch true [5, 0x22]).fbAt 1 ∉ cmdSet) ∧
      ((holding .dispatch true [5, 0x21]).holdsFrame ∧
        payloadShapeOk 0x21 (holding .dispatch true [5, 0x21]).payload = false) ∧
      (holding .dispatch true [6, 0x21]).holdsFrame ∧
        payloadShapeOk 0x21 (holding .dispatch true [6, 0x21]).payload = true := by
  refine ⟨⟨⟨?_, ?_⟩, ?_, ?_⟩, ⟨⟨?_, ?_⟩, ?_⟩, ⟨?_, ?_⟩, ?_⟩ <;> decide

/-- GoodFrameRunsItsHandler. -/
theorem witness_GoodFrameRunsItsHandler :
    Inv (hears ((encode crcA (.getVersion [])).map .byte ++ [.timeout])) ∧
      (Instr.getVersion []).wf tcfg.bufCap = true := ⟨hears_inv _, by decide⟩

/-- BadChecksumDrawsOneNack: V-F9's frame. -/
theorem witness_BadChecksumDrawsOneNack :
    Inv (hears (badFrame.map .byte ++ [])) ∧ (hears (badFrame.map .byte ++ [])).phase = .awaitLen ∧
      ([] : List Byte).length + 6 ≤ tcfg.bufCap ∧ 0x2119F6DF ≠ crc32 tcfg.crc (coveredBytes 0x10 []) ∧
      (hears (badFrame.map .byte ++ [])).rxIn =
        (coveredBytes 0x10 [] ++ le32Bytes 0x2119F6DF).map .byte ++ [] :=
  ⟨hears_inv _, rfl, by decide, by decide +kernel, by decide⟩

/-- CRC-A has property (b) of R11, so FlippedBitDrawsNack's premise on the checksum is met. -/
theorem crcA_seesEveryFlippedBit : SeesEveryFlippedBit crcA := by
  intro bs i k hi hk h
  refine foldl_flipBit_ne (f := crcAByte) ?_ ?_ hi hk _ ((BitVec.xor_left_inj _).mp h)
  · exact fun b c c' h => (BitVec.xor_left_inj _).mp (repeatBit_injective crcABit_injective 8 h)
  · exact fun c b b' h => setWidth_byte_injective
      ((BitVec.xor_right_inj _).mp (repeatBit_injective crcABit_injective 8 h))

theorem goodFrame_inv : Inv (holding .verify false goodFrame) :=
  ⟨by decide, by decide, by decide, by decide, by decide, (holding_frame _ _).1, rfl⟩

/-- FlippedBitDrawsNack, at the code byte and at the last byte of the CRC field. -/
theorem witness_FlippedBitDrawsNack :
    Inv (holding .verify false goodFrame) ∧ (holding .verify false goodFrame).phase = .verify ∧
      (holding .verify false goodFrame).crcMatches = true ∧
      SeesEveryFlippedBit (crc32 (holding .verify false goodFrame).cfg.crc) ∧
      1 ≤ (holding .verify false goodFrame).lenLatch ∧ 5 ≤ (holding .verify false goodFrame).lenLatch ∧
      0 < 8 ∧ 7 < 8 :=
  ⟨goodFrame_inv, rfl, goodFrame_matches _ _, crcA_seesEveryFlippedBit, by decide, by decide, by decide,
    by decide⟩

/-- UnimplementedCommandsAcknowledge: each of the four. -/
theorem witness_UnimplementedCommandsAcknowledge (x : List Byte) (i : Instr)
    (h : i ∈ [.enableRwProtect x, .memoryRead x, .getPageProtectionStatus x, .readOtp x]) :
    i = .enableRwProtect x ∨ i = .memoryRead x ∨ i = .getPageProtectionStatus x ∨ i = .readOtp x := by
  simpa using h

/-- ValidatorEdges: regions that reach both ends of the address space and that touch each other. -/
theorem witness_ValidatorEdges :
    Cfg.wf { Config.testCfg with ramBase := 0, ramEnd := 0x0FFFFFFF, flashBase := 0x10000000,
                                 flashEnd := 0xFFFFFFFF } = true ∧
      Config.testCfg.wf = true := by decide

/-- ValidJumpTransfersControl: the ends of both regions, and the last address there is. -/
theorem witness_ValidJumpTransfersControl :
    ([0x08000000, 0x0800FFFF, 0x20000000, 0x20004FFF].map (isValid base.cfg)) = List.replicate 4 true ∧
      isValid { Config.testCfg with flashEnd := 0xFFFFFFFF } 0xFFFFFFFF = true := by decide

/-- InvalidJumpIsReported and WriteToInvalidAddressIsRefused: the addresses just outside both regions. -/
theorem witness_InvalidJumpIsReported :
    ([0x07FFFFFF, 0x08010000, 0x1FFFFFFF, 0x20005000, 0, 0xFFFFFFFF].map (isValid base.cfg)) =
      List.replicate 6 false := by decide

/-- HandedOffIsAbsorbing. -/
theorem witness_HandedOffIsAbsorbing : (base.resetFrom .launchApp).phase = .handedOff := rfl

/-- BadEraseRangeIsRefused: a count of one too many, with the sentinel and without; the first index that is
no page and the last that is not the sentinel. -/
theorem witness_BadEraseRangeIsRefused :
    base.cfg.maxPage < (65 : Byte).toNat ∧ ((64 : Byte) ≠ 0xFF ∧ base.cfg.maxPage ≤ (64 : Byte).toNat) ∧
      ((254 : Byte) ≠ 0xFF ∧ base.cfg.maxPage ≤ (254 : Byte).toNat) := by decide +kernel

/-- `base` with what the driver will answer. -/
def answers (q : List Ans) : State := { base with answers := q }

/-- EraseMakesOneRequest: all pages with count 0, one page at the last index, and the largest count. -/
theorem witness_EraseMakesOneRequest :
    (answers [.ok]).answerAt 0 = .ok ∧ (0 : Byte).toNat ≤ (answers [.ok]).cfg.maxPage ∧
      ((63 : Byte).toNat < (answers [.ok]).cfg.maxPage ∧ (1 : Byte) ≠ 0) ∧
      (64 : Byte).toNat ≤ (answers [.ok]).cfg.maxPage := by decide

/-- EraseWithoutRequest: a failed unlock, with the sentinel; an empty range. -/
theorem witness_EraseWithoutRequest :
    (answers [.fail]).answerAt 0 = .fail ∧ (1 : Byte).toNat ≤ (answers [.fail]).cfg.maxPage ∧
      (5 : Byte).toNat < (answers [.fail]).cfg.maxPage ∧ ((5 : Byte) ≠ 0xFF ∧ (0 : Byte) = 0) := by decide

/-- EraseActsOnNamedPagesOnly: an erase that answers `ok` and one that fails. -/
theorem witness_EraseActsOnNamedPagesOnly :
    ((answers [.ok, .ok, .ok]).answerAt 0 = .ok ∧ (answers [.ok, .ok, .ok]).answerAt 1 = .ok ∧
        ∃ t, exec (.eraseFlash 2 1 []) (answers [.ok, .ok, .ok]) = .next t) ∧
      (answers [.ok, .fail, .ok]).answerAt 0 = .ok ∧
        ∃ t, exec (.eraseFlash 0xFF 0 []) (answers [.ok, .fail, .ok]) = .next t :=
  ⟨⟨rfl, rfl, _, rfl⟩, rfl, _, rfl⟩

/-- WriteProgramsEveryByteInOrder: no data, and data whose calls and lock all answer `ok`. -/
theorem witness_WriteProgramsEveryByteInOrder :
    isValid base.cfg 0x08008000 = true ∧ ([1, 2] : List Byte).length ≤ 255 ∧
      (∀ k, k ≤ 0 → (answers [.ok]).answerAt k = .ok) ∧
      ∀ k, k ≤ ([1, 2] : List Byte).length → (answers [.ok, .ok, .ok, .ok]).answerAt k = .ok := by decide

/-- WriteStopsAtTheFirstFailure: at the first byte and at the last. -/
theorem witness_WriteStopsAtTheFirstFailure :
    isValid base.cfg 0x08008000 = true ∧
      ([1, 2] : List Byte).length ≤ 255 ∧
      (0 < ([1, 2] : List Byte).length ∧ (∀ k, k ≤ 0 → (answers [.ok, .fail]).answerAt k = .ok) ∧
        (answers [.ok, .fail]).answerAt 1 = .fail) ∧
      1 < ([1, 2] : List Byte).length ∧ (∀ k, k ≤ 1 → (answers [.ok, .ok, .fail]).answerAt k = .ok) ∧
        (answers [.ok, .ok, .fail]).answerAt 2 = .fail := by decide

/-- WriteWithoutUnlockProgramsNothing. -/
theorem witness_WriteWithoutUnlockProgramsNothing :
    isValid (answers [.fail]).cfg 0x08008000 = true ∧ (answers [.fail]).answerAt 0 = .fail := by decide

/-- LevelTwoRequestIsRefused: the values at both ends. -/
theorem witness_LevelTwoRequestIsRefused : 2 ≤ (2 : Byte).toNat ∧ 2 ≤ (255 : Byte).toNat := by decide +kernel

/-- LevelChangeTakesEffect. -/
theorem witness_LevelChangeTakesEffect :
    (answers [.ok, .ok, .ok]).answerAt 0 = .ok ∧ (answers [.ok, .ok, .ok]).answerAt 1 = .ok ∧
      (answers [.ok, .ok, .ok]).answerAt 2 = .ok := by decide

/-- FailedLevelChangeSkipsAndLocks: each step as the one that fails. -/
theorem witness_FailedLevelChangeSkipsAndLocks :
    (answers [.fail]).answerAt 0 = .fail ∧
      ((answers [.ok, .fail]).answerAt 0 = .ok ∧ (answers [.ok, .fail]).answerAt 1 = .fail) ∧
      (answers [.ok, .ok, .fail]).answerAt 0 = .ok ∧ (answers [.ok, .ok, .fail]).answerAt 1 = .ok ∧
        (answers [.ok, .ok, .fail]).answerAt 2 = .fail := by decide

/-- StepNeverStopsAndKeepsTheInvariant, in `EXEC`; `base_inv`, `latched_inv` and `goodFrame_inv` are three
of the other phases. -/
theorem witness_StepNeverStopsAndKeepsTheInvariant : Inv (holding .exec true goodFrame) :=
  ⟨by decide, by decide, by decide, by decide, by decide, (holding_frame _ _).1, rfl, goodFrame_matches _ _,
    .getVersion [], by decide⟩

/-- BracketsStayClosed: a step that opens and closes a bracket. -/
theorem witness_BracketsStayClosed :
    bracketAfter (ready [7, 0x15, 0x02, 0x01] [.ok, .ok, .ok]).events = .closed ∧
      ∃ t, step (ready [7, 0x15, 0x02, 0x01] [.ok, .ok, .ok]) = .next t := ⟨rfl, _, rfl⟩

/-- EveryCallKeepsItsContract. -/
theorem witness_EveryCallKeepsItsContract :
    Inv (hears [.byte 5]) ∧ ∃ t, step (hears [.byte 5]) = .next t := ⟨hears_inv _, _, rfl⟩

/-- NoStepSetsLevelTwo: a step that leaves level 2 as it is. -/
theorem witness_NoStepSetsLevelTwo :
    ∃ t, step { ready [5, 0x13] [] with rop := .level2 } = .next t ∧ t.rop = .level2 := ⟨_, rfl, rfl⟩

/-- ConfigurationStaysAndEventsGrow. -/
theorem witness_ConfigurationStaysAndEventsGrow : ∃ t, step (ready [5, 0x13] []) = .next t := ⟨_, rfl⟩

/-- OnlyHandlersTouchTheDevice. -/
theorem witness_OnlyHandlersTouchTheDevice :
    (holding .dispatch true [5, 0x22]).phase ≠ .exec ∧
      ∃ t, step (holding .dispatch true [5, 0x22]) = .next t := ⟨by decide, _, rfl⟩

/-- OnlyValidJumpHandsOff. -/
theorem witness_OnlyValidJumpHandsOff :
    (ready [9, 0x14, 0, 0, 0, 8] []).phase ≠ .handedOff ∧
      ∃ t, step (ready [9, 0x14, 0, 0, 0, 8] []) = .next t ∧ t.phase = .handedOff :=
  ⟨by decide, _, rfl, by decide⟩

/-- OneReplyAfterAllDriverCalls: a reply alone, and a valid jump's reply and transfer. -/
theorem witness_OneReplyAfterAllDriverCalls :
    (∃ t, exec (.readOtp []) base = .next t) ∧ ∃ t, exec (.jumpToAddress 0x08000000 []) base = .next t :=
  ⟨⟨_, rfl⟩, _, rfl⟩

/-- CommandsSeeNoEarlierFrame: two states that differ in the buffer, the flags and the loop index. -/
theorem witness_CommandsSeeNoEarlierFrame :
    SameForCommands base { base with fb := [], u := .ok, wi := 7, crcAcc := 1 } ∧
      (∃ t, exec (.eraseFlash 0xFF 0 []) base = .next t) ∧
      ∃ t, exec (.eraseFlash 0xFF 0 []) { base with fb := [], u := .ok, wi := 7, crcAcc := 1 } = .next t :=
  ⟨by constructor <;> rfl, ⟨_, rfl⟩, _, rfl⟩

/-- ResetRestoresTheInvariant: a state in the middle of a frame, with bytes in memory. -/
theorem witness_ResetRestoresTheInvariant :
    { latched 5 [] with mem := [(0x08000000, 1), (0x20000000, 2)] }.cfg.wf = true ∧
      Memory.wf [(0x08000000, 1), (0x20000000, 2)] := by decide

/-! ### Loss of power -/

/-- V-W1's frame of four data bytes, at an address of the flash region. -/
def writing (q : List Ans) : State :=
  ready [0x0E, 0x16, 0x00, 0x80, 0x00, 0x08, 0x04, 0xDE, 0xAD, 0xBE, 0xEF, 0x74, 0xB6, 0x71, 0x04] q

/-- V-P1's frame. -/
def levelling (q : List Ans) : State := ready [0x06, 0x21, 0x01, 0xD5, 0x80, 0x54, 0x00] q

/-- Power lost after the unlock and one byte (R285): the byte stays, the lock that was open is set again by
the reset, and the engine waits for a length byte (R55). -/
theorem test_power_lost_in_a_write :
    ((writing (List.replicate 6 .ok)).powerLoss .engine 2 false).mem = [(0x08008000, 0xDE)] ∧
      ((writing (List.replicate 6 .ok)).powerLoss .engine 2 false).flLocked = true ∧
      ((writing (List.replicate 6 .ok)).powerLoss .engine 2 false).phase = .awaitLen := by decide

/-- Power lost after the reload (R68): the requested level stays; and before the program: the old one. -/
theorem test_power_lost_in_a_level_change :
    ((levelling (List.replicate 4 .ok)).powerLoss .engine 3 false).rop = .level1 ∧
      ((levelling (List.replicate 4 .ok)).powerLoss .engine 1 false).rop = .level0 := by decide

/-- The launcher's second word runs past the end of the address space (R18, R297; log entry 35), and a word
inside it is little-endian. -/
theorem test_launcher_reads :
    ({ base with
        cfg := { tcfg with appBase := 0xFFFFFFFC }
        mem := [(0, 1), (1, 1), (2, 1), (3, 1), (0xFFFFFFFC, 0x78), (0xFFFFFFFD, 0x56),
          (0xFFFFFFFE, 0x34), (0xFFFFFFFF, 0x12)] }).launcherReads = (some 0x12345678, none) := by decide

/-- PowerLossBetweenStepsIsAReset: a step of one event, cut after it. -/
theorem witness_PowerLossBetweenStepsIsAReset :
    ∃ t, step (ready [5, 0x13] []) = .next t ∧
      t.events.length ≤ (ready [5, 0x13] []).events.length + 2 := ⟨_, rfl, by decide⟩

/-- PowerLossRestoresTheInvariant: in the middle of a write, with bytes in memory. -/
theorem witness_PowerLossRestoresTheInvariant :
    { writing [.ok] with mem := [(0x08000000, 1), (0x20000000, 2)] }.cfg.wf = true ∧
      Memory.wf [(0x08000000, 1), (0x20000000, 2)] := by decide

/-- PowerLossInAWriteKeepsTheBytesWritten: before the first byte, in the middle, and after the last; each
address is in the flash region. -/
theorem witness_PowerLossInAWriteKeepsTheBytesWritten :
    (writing (List.replicate 5 .ok)).phase = .exec ∧
      (writing (List.replicate 5 .ok)).fetch =
        .instr (.memoryWrite 0x08008000 [0xDE, 0xAD, 0xBE, 0xEF] []) ∧
      isValid tcfg 0x08008000 = true ∧
      (∀ j, j ∈ [0, 2, 4] → ∀ k, k ≤ j → (writing (List.replicate 5 .ok)).answerAt k = .ok) ∧
      tcfg.flashBase.toNat ≤ 0x08008000 ∧ 0x08008003 ≤ tcfg.flashEnd.toNat := by decide

/-- PowerLossInAnEraseTouchesNamedPagesOnly: V-E1's frame, and a byte of page 5, which it does not name. -/
theorem witness_PowerLossInAnEraseTouchesNamedPagesOnly :
    (ready [0x07, 0x15, 0x02, 0x03] [.ok]).phase = .exec ∧
      (ready [0x07, 0x15, 0x02, 0x03] [.ok]).fetch = .instr (.eraseFlash 2 3 []) ∧
      inFlash tcfg 0x08000014 ∧
      ∀ p, (eraseRequest tcfg 2 3).names tcfg p → ¬ inPage tcfg p 0x08000014 := by
  refine ⟨rfl, rfl, ⟨by decide, by decide⟩, ?_⟩
  intro p h h'
  have h2 : p * 4 + 4 ≤ 20 := by
    have : p < 2 + 3 := h.2
    omega
  have h3 : 0x08000014 < 0x08000000 + (p + 1) * 4 := h'.2.1
  omega

/-- PowerLossInALevelChangeLeavesOldOrRequested: a level that may be asked for, and level 2. -/
theorem witness_PowerLossInALevelChangeLeavesOldOrRequested :
    (levelling [.ok, .ok]).phase = .exec ∧
      (levelling [.ok, .ok]).fetch = .instr (.disableRwProtect 1 []) ∧
      (ready [0x06, 0x21, 0x02] []).fetch = .instr (.disableRwProtect 2 []) ∧
      requestedLevel 2 = none ∧ inFlash tcfg 0x0800FFFF :=
  ⟨rfl, rfl, rfl, rfl, by decide, by decide⟩

end Sys2Proof.Tests
end

section
/-! PROOFS. The family of 00_scope.md: property (b) of R11 for the two candidate checksums. -/

namespace Sys2Proof.Machine

/-- The shape of both candidates: the byte is added to the state, and bit steps that lose nothing follow.  Such
a step loses neither the state nor the byte. -/
theorem foldl_xorByte_flipBit_ne {g : W32 → W32} (hg : Function.Injective g) {bs : List Byte} {i k : Nat}
    (hi : i < bs.length) (hk : k < 8) (c : W32) :
    (flipBit bs i k).foldl (fun c b => g (c ^^^ b.setWidth 32)) c ≠
      bs.foldl (fun c b => g (c ^^^ b.setWidth 32)) c := by
  refine foldl_flipBit_ne ?_ ?_ hi hk c
  · exact fun _ _ _ h => (BitVec.xor_left_inj _).mp (hg h)
  · exact fun _ _ _ h => setWidth_byte_injective ((BitVec.xor_right_inj _).mp (hg h))

/-- Settles O15: both candidates fold a byte step of the shape of `foldl_xorByte_flipBit_ne`, and the final
exclusive or of CRC-A keeps different values different. -/
theorem candidateChecksumsSeeEveryFlippedBit : Obligations.CandidateChecksumsSeeEveryFlippedBit := by
  constructor
  · intro bs i b hi hb h
    exact foldl_xorByte_flipBit_ne (repeatBit_injective crcABit_injective 8) hi hb _
      ((BitVec.xor_left_inj _).mp h)
  · intro bs i b hi hb
    exact foldl_xorByte_flipBit_ne (repeatBit_injective crcBBit_injective 32) hi hb _

end Sys2Proof.Machine
end

section
/-! PROOFS. The family of 10_state.md, first part: what every interface call and every step keeps, said once as
two relations, `CallRun` for a run of operations and `Transition` for a whole step. -/

namespace Sys2Proof.Machine

/-! ### Contracts of the calls -/

/-- What the call contracts rest on: an admitted configuration, and a buffer of its capacity (R20). -/
def State.fitted (s : State) : Prop := s.cfg.wf = true ∧ s.fb.length = s.cfg.bufCap

theorem Inv.fitted {s : State} (h : Inv s) : s.fitted := ⟨h.cfgOk, h.fbLength⟩

theorem Cfg.chipId_length_le {c : Cfg} (h : c.wf = true) : c.chipId.length ≤ 255 := by
  simp only [Cfg.wf, Cfg.chipIdOk, Bool.and_eq_true, decide_eq_true_eq] at h
  omega

/-- Every listed reply is short enough to be transmitted (R41, R112). -/
theorem eventOk_tx {c : Cfg} (h : c.wf = true) {bs : List Byte} (hb : bs ∈ legalReplies c) :
    eventOk c (.tx bs) := by
  have hc := Cfg.chipId_length_le h
  have hl : 1 ≤ bs.length ∧ bs.length ≤ 257 := by
    simp only [legalReplies, List.mem_cons, List.not_mem_nil, or_false] at hb
    rcases hb with rfl | rfl | rfl | rfl | rfl | rfl | rfl | rfl <;> simp
    omega
  exact ⟨hl.1, hl.2, hb⟩

theorem nack_legal (c : Cfg) : [0xAB] ∈ legalReplies c := by simp [legalReplies]

/-- A status byte of R12 makes a listed reply (R111, R112). -/
theorem ackReply_status_legal (c : Cfg) {b : Byte} (h : b = 0x00 ∨ b = 0x01) :
    ackReply [b] ∈ legalReplies c := by
  obtain rfl | rfl := h <;> simp [ackReply, ackByte, legalReplies]

theorem addrValid_legal (c : Cfg) : ackReply [addrValid] ∈ legalReplies c :=
  ackReply_status_legal c (.inr rfl)

theorem ackReply_level_legal (c : Cfg) (v : Level) : ackReply [v.toByte] ∈ legalReplies c := by
  cases v <;> simp [ackReply, ackByte, Level.toByte, legalReplies]

theorem eraseStatus_cases (s : State) : s.eraseStatus = 0x00 ∨ s.eraseStatus = 0x01 := by
  unfold State.eraseStatus; split
  · exact .inr rfl
  · exact .inl rfl

theorem writeStatus_cases (s : State) : s.writeStatus = 0x00 ∨ s.writeStatus = 0x01 := by
  unfold State.writeStatus; split
  · exact .inr rfl
  · exact .inl rfl

theorem ropStatus_cases (s : State) : s.ropStatus = 0x00 ∨ s.ropStatus = 0x01 := by
  unfold State.ropStatus; split
  · exact .inr rfl
  · exact .inl rfl

/-- A request the checks let through lies within the page limit, unless it is empty (R45, R192 to R194). -/
theorem eraseRequest_ok {c : Cfg} {pidx pcnt : Byte} (h : eraseAllowed c pidx pcnt = true)
    (he : (eraseRequest c pidx pcnt).isEmpty = false) (r : Ans) :
    eventOk c (.flErase (eraseRequest c pidx pcnt) r) := by
  unfold eraseRequest at he ⊢
  by_cases hm : pidx = massErase
  · rw [if_pos hm]; trivial
  · simp only [if_neg hm, EraseReq.isEmpty, decide_eq_false_iff_not] at he
    simp only [eraseAllowed, hm, decide_false, Bool.false_or, Bool.and_eq_true, decide_eq_true_eq] at h
    rw [if_neg hm]
    exact ⟨h.2, by omega, by omega⟩

/-! ### A run of operations -/

/-- What the operations between two phases keep, whatever they call: the configuration, `handed_off`, the
buffer's length, memory's canonical form and the range of `wi`; and every call they add keeps its contract. -/
structure CallRun (s t : State) : Prop where
  cfg : t.cfg = s.cfg
  handedOff : t.handedOff = s.handedOff
  fbLength : t.fb.length = s.fb.length
  memWf : s.mem.wf → t.mem.wf
  wiRange : s.wi ≤ 255 → t.wi ≤ 255
  events : ∃ evs, t.events = s.events ++ evs ∧ (s.fitted → ∀ ev, ev ∈ evs → eventOk s.cfg ev)

theorem CallRun.fitted {s t : State} (h : CallRun s t) (hs : s.fitted) : t.fitted := by
  obtain ⟨hw, hl⟩ := hs
  exact ⟨h.cfg ▸ hw, by rw [h.fbLength, h.cfg, hl]⟩

theorem CallRun.trans {s t v : State} (h : CallRun s t) (g : CallRun t v) : CallRun s v where
  cfg := g.cfg.trans h.cfg
  handedOff := g.handedOff.trans h.handedOff
  fbLength := g.fbLength.trans h.fbLength
  memWf := g.memWf ∘ h.memWf
  wiRange := g.wiRange ∘ h.wiRange
  events := by
    obtain ⟨es, he, ho⟩ := h.events
    obtain ⟨fs, hf, hp⟩ := g.events
    refine ⟨es ++ fs, by rw [hf, he, List.append_assoc], fun hs ev hev => ?_⟩
    obtain hev | hev := List.mem_append.mp hev
    · exact ho hs ev hev
    · exact h.cfg ▸ hp (h.fitted hs) ev hev

/-- An operation that makes one call. -/
theorem CallRun.ofCall {s t : State} {ev : Event} (hc : t.cfg = s.cfg) (hh : t.handedOff = s.handedOff)
    (hl : t.fb.length = s.fb.length) (hm : s.mem.wf → t.mem.wf) (hw : t.wi = s.wi)
    (he : t.events = s.events ++ [ev]) (ho : s.fitted → eventOk s.cfg ev) : CallRun s t :=
  ⟨hc, hh, hl, hm, hw ▸ id, [ev], he, fun hs _ hev => List.mem_singleton.mp hev ▸ ho hs⟩

/-- An operation that makes none. -/
theorem CallRun.ofSilent {s t : State} (hc : t.cfg = s.cfg) (hh : t.handedOff = s.handedOff)
    (hl : t.fb.length = s.fb.length) (hm : t.mem = s.mem) (hw : s.wi ≤ 255 → t.wi ≤ 255)
    (he : t.events = s.events) : CallRun s t :=
  ⟨hc, hh, hl, hm ▸ id, hw, [], by simp [he], by simp⟩

theorem CallRun.refl (s : State) : CallRun s s := .ofSilent rfl rfl rfl rfl id rfl

/-- A receive of as many bytes as a length byte can ask for (R40). -/
theorem recv_run {n : Nat} (h1 : 1 ≤ n) (h2 : n ≤ 255) (s : State) : CallRun s (recv n s) :=
  .ofCall rfl rfl rfl id rfl rfl fun _ => ⟨h1, h2, fun _ h => (rxAnswer_bytes h).1⟩

theorem send_run {bs : List Byte} {s : State} (h : bs ∈ legalReplies s.cfg) : CallRun s (send bs s) :=
  .ofCall rfl rfl rfl id rfl rfl fun hs => eventOk_tx hs.1 h

theorem storeFb_run (pos : Nat) (bs : List Byte) (s : State) : CallRun s (storeFb pos bs s) :=
  .ofSilent rfl rfl (storeFb_length pos bs s) rfl id rfl

/-- A checksum over a whole frame in the buffer covers 2 to `BUF_CAP - 4` bytes (R126). -/
theorem checkCrc_run {s : State} (h : s.holdsFrame) : CallRun s (checkCrc s) := by
  obtain ⟨h1, h2⟩ := h
  refine .ofCall rfl rfl rfl id rfl rfl fun ⟨_, hl⟩ => ⟨?_, ?_, rfl⟩ <;>
    (simp [State.covered]; omega)

theorem flUnlock_run (s : State) : CallRun s (flUnlock s) :=
  .ofCall rfl rfl rfl id rfl rfl fun _ => trivial

theorem flLock_run (s : State) : CallRun s (flLock s) :=
  .ofCall rfl rfl rfl id rfl rfl fun _ => trivial

theorem flErase_run {req : EraseReq} {s : State} (h : ∀ r, eventOk s.cfg (.flErase req r)) :
    CallRun s (flErase req s) :=
  .ofCall rfl rfl rfl (fun hm => Memory.fillClipped_wf hm _ _ _) rfl rfl fun _ => h _

theorem flProg_run (a : W32) (v : Byte) (s : State) : CallRun s (flProg a v s) :=
  .ofCall rfl rfl rfl (fun hm => Memory.write_wf hm _ _) rfl rfl fun _ => trivial

theorem obUnlock_run (s : State) : CallRun s (obUnlock s) :=
  .ofCall rfl rfl rfl id rfl rfl fun _ => trivial

theorem obLock_run (s : State) : CallRun s (obLock s) :=
  .ofCall rfl rfl rfl id rfl rfl fun _ => trivial

theorem ropEnc_cases (c : Cfg) (k : SetLevel) : ropEnc c k = c.ropEnc0 ∨ ropEnc c k = c.ropEnc1 := by
  cases k
  · exact .inl rfl
  · exact .inr rfl

theorem obProg_run (k : SetLevel) (s : State) : CallRun s (obProg k s) :=
  .ofCall rfl rfl rfl id rfl rfl fun _ => ropEnc_cases s.cfg k

theorem obReload_run (k : SetLevel) (s : State) : CallRun s (obReload k s) :=
  .ofCall rfl rfl rfl id rfl rfl fun _ => trivial

theorem ropRead_run (s : State) : CallRun s (ropRead s) :=
  .ofCall rfl rfl rfl id rfl rfl fun _ => trivial

theorem skipErase_run (s : State) : CallRun s (skipErase s) := .ofSilent rfl rfl rfl rfl id rfl

theorem skipProgram_run (s : State) : CallRun s (skipProgram s) := .ofSilent rfl rfl rfl rfl id rfl

theorem skipReload_run (s : State) : CallRun s (skipReload s) := .ofSilent rfl rfl rfl rfl id rfl

theorem beginLoop_run (s : State) : CallRun s (beginLoop s) :=
  .ofSilent rfl rfl rfl rfl (fun _ => Nat.zero_le _) rfl

/-- The index is counted only inside its range (R23). -/
theorem countWritten_run {s : State} (h : s.wi + 1 ≤ 255) : CallRun s (countWritten s) := by
  unfold countWritten
  split
  · exact .ofSilent rfl rfl rfl rfl (fun _ => h) rfl
  · exact .refl s

theorem countWritten_wi_le (s : State) : (countWritten s).wi ≤ s.wi + 1 := by
  unfold countWritten
  split <;> simp

/-! ### The brackets -/

theorem eraseBracket_run {req : EraseReq} {s : State}
    (h : req.isEmpty = false → ∀ r, eventOk s.cfg (.flErase req r)) :
    CallRun s (eraseBracket req s) := by
  refine .trans ?_ (flLock_run _)
  refine (flUnlock_run s).trans ?_
  obtain ⟨-, he, e⟩ | ⟨-, e⟩ := eraseStep_cases req (flUnlock s) <;> rw [e]
  · exact flErase_run (h he)
  · exact skipErase_run _

theorem programLoop_run (addr : W32) (bs : List Byte) {s : State} (h : s.wi + bs.length ≤ 255) :
    CallRun s (programLoop addr bs s) := by
  induction bs generalizing s with
  | nil => exact .refl s
  | cons b bs ih =>
    simp only [List.length_cons] at h
    rw [programLoop]
    split
    · have hc := countWritten_wi_le (flProg (addr + BitVec.ofNat 32 s.wi) b s)
      rw [flProg_wi] at hc
      exact ((flProg_run _ b s).trans (countWritten_run (by simp; omega))).trans (ih (by omega))
    · exact .refl s

theorem writeBracket_run (addr : W32) {d : List Byte} (h : d.length ≤ 255) (s : State) :
    CallRun s (writeBracket addr d s) := by
  refine .trans ?_ (flLock_run _)
  refine (flUnlock_run s).trans ?_
  unfold writeStep
  split
  · exact (beginLoop_run _).trans (programLoop_run addr d (by simpa using h))
  · exact beginLoop_run _

theorem ropProgramStep_run (k : SetLevel) (s : State) : CallRun s (ropProgramStep k s) := by
  obtain ⟨-, e⟩ | ⟨-, e⟩ := ropProgramStep_cases k s <;> rw [e]
  · exact obProg_run k s
  · exact skipProgram_run s

theorem ropReloadStep_run (k : SetLevel) (s : State) : CallRun s (ropReloadStep k s) := by
  obtain ⟨-, -, e⟩ | ⟨-, e⟩ := ropReloadStep_cases k s <;> rw [e]
  · exact obReload_run k s
  · exact skipReload_run s

theorem ropBracket_run (k : SetLevel) (s : State) : CallRun s (ropBracket k s) :=
  (((obUnlock_run s).trans (ropProgramStep_run k _)).trans (ropReloadStep_run k _)).trans (obLock_run _)

/-! ### The decoder's promises to the handlers -/

/-- The length byte of MEMORY_WRITE bounds its data (R97). -/
theorem decode_memoryWrite_length {bs : List Byte} {a : W32} {d x : List Byte}
    (h : decode bs = .instr (.memoryWrite a d x)) : d.length ≤ 255 := by
  unfold decode at h
  split at h
  · cases h
  · unfold decodeFields at h
    repeat' split at h
    all_goals cases h
    rename_i len rest _ _
    have := len.isLt
    simp; omega

/-- A supported code with a payload of its shape is a command (R100, R101). -/
theorem decodeFields_of_shape {code : Byte} {pl : List Byte} (hc : code ∈ cmdSet)
    (hs : payloadShapeOk code pl = true) : ∃ i, decodeFields code pl = .instr i := by
  simp only [cmdSet, List.mem_cons, List.not_mem_nil, or_false] at hc
  simp only [payloadShapeOk, Bool.and_eq_true, Bool.or_eq_true, decide_eq_true_eq] at hs
  obtain ⟨hn, hl⟩ := hs
  rcases hc with rfl | rfl | rfl | rfl | rfl | rfl | rfl | rfl | rfl | rfl | rfl | rfl
  · exact ⟨.getVersion pl, rfl⟩
  · exact ⟨.getHelp pl, rfl⟩
  · exact ⟨.getChipId pl, rfl⟩
  · exact ⟨.getProtectionStatus pl, rfl⟩
  · match pl, hn with
    | a0 :: a1 :: a2 :: a3 :: x, _ => exact ⟨_, decodeFields_jumpToAddress a0 a1 a2 a3 x⟩
  · match pl, hn with
    | p :: c :: x, _ => exact ⟨_, decodeFields_eraseFlash p c x⟩
  · match pl, hn with
    | a0 :: a1 :: a2 :: a3 :: len :: rest, _ =>
      have hr : ¬ rest.length < len.toNat := by simp at hl; omega
      exact ⟨_, (decodeFields_memoryWrite a0 a1 a2 a3 len rest).trans (if_neg hr)⟩
  · exact ⟨.enableRwProtect pl, rfl⟩
  · exact ⟨.memoryRead pl, rfl⟩
  · exact ⟨.getPageProtectionStatus pl, rfl⟩
  · exact ⟨.readOtp pl, rfl⟩
  · match pl, hn with
    | l :: x, _ => exact ⟨_, decodeFields_disableRwProtect l x⟩

end Sys2Proof.Machine
end

section
/-! PROOFS. The family of 10_state.md, second part: what one step can do (R26), and the statements about every
step that follow from it. -/

namespace Sys2Proof.Machine

/-! ### What one step can do -/

/-- What a step leads to (R26): nothing after the hand-off; else a run of operations, and then the next cycle or
the next phase, whose promise is kept; or a valid jump's reply and transfer. -/
inductive Transition (s : State) : State → Prop where
  | absorbed (h : s.phase = .handedOff) : Transition s s
  | newCycle {v : State} (hp : s.phase ≠ .handedOff) (h : CallRun s v) : Transition s (beginCycle v)
  | advance {v : State} (ph : Phase) (hp : s.phase ≠ .handedOff) (hq : ph ≠ .handedOff) (h : CallRun s v)
      (ok : Inv s → (setPhase ph v).phaseOk) : Transition s (setPhase ph v)
  | handOff {addr : W32} {x : List Byte} (hp : s.phase = .exec)
      (hf : s.fetch = .instr (.jumpToAddress addr x)) (hv : isValid s.cfg addr = true) :
      Transition s (xfer (addr + 1) (send (ackReply [addrValid]) s))

/-- The length byte a receive of one byte latches. -/
theorem storeFb_zero_lenLatch {b : Byte} {s : State} (h : 0 < s.fb.length) :
    (storeFb 0 [b] s).lenLatch = b.toNat := by
  rw [State.lenLatch, storeFb_fbAt 0 [b] s h]
  simp

/-- The body is stored behind the length byte, which stays latched. -/
theorem storeFb_one_lenLatch {bs : List Byte} {s : State} (h : 1 + bs.length ≤ s.fb.length) :
    (storeFb 1 bs s).lenLatch = s.lenLatch := by
  rw [State.lenLatch, storeFb_fbAt 1 bs s h]
  rfl

theorem lenLatch_le (s : State) : s.lenLatch ≤ 255 := by
  have := (s.fbAt 0).isLt
  simp only [State.lenLatch]
  omega

theorem awaitLenStep_transition {s t : State} (hp : s.phase = .awaitLen)
    (h : awaitLenStep s = .next t) : Transition s t := by
  have hn : s.phase ≠ .handedOff := by simp [hp]
  have hr : CallRun s (recv 1 s) := recv_run (by omega) (by omega) s
  obtain ⟨-, e⟩ | ⟨b, -, hb⟩ := awaitLenStep_cases s
  · rw [e] at h; cases h
    exact .newCycle hn hr
  have hs := hr.trans (storeFb_run 0 [b] _)
  obtain ⟨-, e⟩ | ⟨-, -, e⟩ | ⟨h1, h2, e⟩ := hb <;> rw [e] at h <;> cases h
  · exact .newCycle hn (hs.trans (send_run (nack_legal _)))
  · exact .newCycle hn (hs.trans (send_run (nack_legal _)))
  · refine .advance .awaitBody hn (by simp) hs fun hi => ?_
    have hk := hi.phaseIs
    simp only [State.phaseOk, hp] at hk
    exact ⟨Nat.pos_of_ne_zero h2, h1, hk.2⟩

theorem awaitBodyStep_transition {s t : State} (hp : s.phase = .awaitBody)
    (h : awaitBodyStep s = .next t) : Transition s t := by
  have hn : s.phase ≠ .handedOff := by simp [hp]
  obtain ⟨-, e⟩ | ⟨h1, h2, hb⟩ := awaitBodyStep_cases s
  · rw [e] at h; cases h
  have hr : CallRun s (recv s.lenLatch s) := recv_run (by omega) (lenLatch_le s) s
  obtain ⟨-, e⟩ | ⟨bs, -, hl, ⟨-, e⟩ | ⟨h5, e⟩⟩ := hb <;> rw [e] at h <;> cases h
  · exact .newCycle hn hr
  · exact .newCycle hn ((hr.trans (storeFb_run 1 bs _)).trans (send_run (nack_legal _)))
  · refine .advance .verify hn (by simp) (hr.trans (storeFb_run 1 bs _)) fun hi => ?_
    have hk := hi.phaseIs
    simp only [State.phaseOk, hp] at hk
    have hlen : (storeFb 1 bs (recv s.lenLatch s)).lenLatch = s.lenLatch :=
      storeFb_one_lenLatch (by rw [recv_fb, hi.fbLength]; omega)
    exact ⟨⟨hlen ▸ h5, hlen ▸ h2⟩, hk.2.2⟩

theorem verifyStep_transition {s t : State} (hp : s.phase = .verify) (h : verifyStep s = .next t) :
    Transition s t := by
  have hn : s.phase ≠ .handedOff := by simp [hp]
  obtain ⟨-, e⟩ | ⟨hf, ⟨hm, e⟩ | ⟨-, e⟩⟩ := verifyStep_cases s <;> rw [e] at h <;> cases h
  · exact .advance .dispatch hn (by simp) (checkCrc_run hf) fun _ => ⟨hf, hm, hm⟩
  · exact .newCycle hn ((checkCrc_run hf).trans (send_run (nack_legal _)))

theorem dispatchStep_transition {s t : State} (hp : s.phase = .dispatch)
    (h : dispatchStep s = .next t) : Transition s t := by
  have hn : s.phase ≠ .handedOff := by simp [hp]
  obtain ⟨-, e⟩ | ⟨-, hf, ⟨-, e⟩ | ⟨-, -, e⟩ | ⟨hc, hs, e⟩⟩ := dispatchStep_cases s <;>
    rw [e] at h <;> cases h
  · exact .newCycle hn (.refl s)
  · exact .newCycle hn (send_run (nack_legal _))
  · refine .advance .exec hn (by simp) (.refl s) fun hi => ?_
    have hk := hi.phaseIs
    simp only [State.phaseOk, hp] at hk
    obtain ⟨i, hd⟩ := decodeFields_of_shape hc hs
    exact ⟨hf, hk.2.1, hk.2.2, i, (fetch_eq_decodeFields hf hi.fbLength).trans hd⟩

/-- A handler that only works through its calls ends in its reply and the next cycle (R132, R133). -/
theorem Transition.replied {s v : State} {bs : List Byte} (hp : s.phase = .exec) (h : CallRun s v)
    (hb : bs ∈ legalReplies s.cfg) : Transition s (beginCycle (send bs v)) :=
  .newCycle (by simp [hp]) (h.trans (send_run (h.cfg ▸ hb)))

theorem execJumpToAddress_transition {s t : State} {addr : W32} {x : List Byte} (hp : s.phase = .exec)
    (hf : s.fetch = .instr (.jumpToAddress addr x)) (h : execJumpToAddress addr s = .next t) :
    Transition s t := by
  unfold execJumpToAddress at h
  cases h
  split
  · exact .handOff hp hf ‹_›
  · exact .replied hp (.refl s) (ackReply_status_legal _ (.inl rfl))

theorem execEraseFlash_transition {s t : State} {pidx pcnt : Byte} (hp : s.phase = .exec)
    (h : execEraseFlash pidx pcnt s = .next t) : Transition s t := by
  unfold execEraseFlash at h
  cases h
  split
  · exact .replied hp (eraseBracket_run (eraseRequest_ok ‹_›))
      (ackReply_status_legal _ (eraseStatus_cases _))
  · exact .replied hp (.refl s) (ackReply_status_legal _ (.inl rfl))

theorem execMemoryWrite_transition {s t : State} {addr : W32} {d : List Byte} (hp : s.phase = .exec)
    (hl : d.length ≤ 255) (h : execMemoryWrite addr d s = .next t) : Transition s t := by
  unfold execMemoryWrite at h
  cases h
  split
  · exact .replied hp (writeBracket_run addr hl s) (ackReply_status_legal _ (writeStatus_cases _))
  · exact .replied hp (.refl s) (ackReply_status_legal _ (.inl rfl))

theorem execDisableRwProtect_transition {s t : State} {lvl : Byte} (hp : s.phase = .exec)
    (h : execDisableRwProtect lvl s = .next t) : Transition s t := by
  unfold execDisableRwProtect at h
  cases h
  split
  · exact .replied hp (ropBracket_run _ s) (ackReply_status_legal _ (ropStatus_cases _))
  · exact .replied hp (.refl s) (ackReply_status_legal _ (.inl rfl))

theorem acknowledgeOnly_transition {s : State} (hp : s.phase = .exec) :
    Transition s (acknowledgeOnly s) :=
  .replied hp (.refl s) (by simp [ackReply, ackByte, legalReplies])

theorem exec_transition {s t : State} {i : Instr} (hp : s.phase = .exec) (hf : s.fetch = .instr i)
    (h : exec i s = .next t) : Transition s t := by
  cases i with
  | getVersion x =>
    cases h
    exact .replied hp (.refl s) (by simp [ackReply, ackByte, legalReplies])
  | getHelp x =>
    cases h
    exact .replied hp (.refl s) (by simp [ackReply, ackByte, cmdSet, legalReplies])
  | getChipId x =>
    cases h
    exact .replied hp (.refl s) (by simp [ackReply, ackByte, legalReplies])
  | getProtectionStatus x =>
    cases h
    exact .replied hp (ropRead_run s) (ackReply_level_legal _ _)
  | jumpToAddress addr x => exact execJumpToAddress_transition hp hf h
  | eraseFlash pidx pcnt x => exact execEraseFlash_transition hp h
  | memoryWrite addr d x => exact execMemoryWrite_transition hp (decode_memoryWrite_length hf) h
  | enableRwProtect x => cases h; exact acknowledgeOnly_transition hp
  | memoryRead x => cases h; exact acknowledgeOnly_transition hp
  | getPageProtectionStatus x => cases h; exact acknowledgeOnly_transition hp
  | readOtp x => cases h; exact acknowledgeOnly_transition hp
  | disableRwProtect lvl x => exact execDisableRwProtect_transition hp h

theorem step_exec {s : State} {i : Instr} (hp : s.phase = .exec) (hf : s.fetch = .instr i) :
    step s = exec i s := by
  simp [step, hp, hf]

theorem step_exec_rejected {s : State} {why : Reject} (hp : s.phase = .exec)
    (hf : s.fetch = .rejected why) : step s = .fault (.phaseBroken .exec) := by
  simp [step, hp, hf]

/-- Every step that answers a next state is one of the four transitions. -/
theorem step_transition {s t : State} (h : step s = .next t) : Transition s t := by
  cases hp : s.phase with
  | awaitLen => exact awaitLenStep_transition hp (step_awaitLen hp ▸ h)
  | awaitBody => exact awaitBodyStep_transition hp (step_awaitBody hp ▸ h)
  | verify => exact verifyStep_transition hp (step_verify hp ▸ h)
  | dispatch => exact dispatchStep_transition hp (step_dispatch hp ▸ h)
  | exec =>
    cases hf : s.fetch with
    | instr i => exact exec_transition hp hf (step_exec hp hf ▸ h)
    | rejected why => rw [step_exec_rejected hp hf] at h; cases h
  | handedOff =>
    rw [step_handedOff hp] at h
    cases h
    exact .absorbed hp

/-! ### The invariant -/

/-- The next cycle's start meets the invariant whatever the cycle's calls have done (R134). -/
theorem Inv.beginCycle {s v : State} (hi : Inv s) (hp : s.phase ≠ .handedOff) (h : CallRun s v) :
    Inv (beginCycle v) where
  cfgOk := h.cfg ▸ hi.cfgOk
  fbLength := by simp
  memWf := h.memWf hi.memWf
  handOff := by simpa [h.handedOff, hp] using hi.handOff
  wiRange := h.wiRange hi.wiRange
  phaseIs := ⟨rfl, rfl⟩

theorem Inv.setPhase {s v : State} {ph : Phase} (hi : Inv s) (hp : s.phase ≠ .handedOff)
    (hq : ph ≠ .handedOff) (h : CallRun s v) (hk : (setPhase ph v).phaseOk) : Inv (setPhase ph v) where
  cfgOk := h.cfg ▸ hi.cfgOk
  fbLength := (h.fitted hi.fitted).2
  memWf := h.memWf hi.memWf
  handOff := by simpa [h.handedOff, hp, hq] using hi.handOff
  wiRange := h.wiRange hi.wiRange
  phaseIs := hk

theorem Inv.xfer {s v : State} (target : W32) (hi : Inv s) (h : CallRun s v) : Inv (xfer target v) where
  cfgOk := h.cfg ▸ hi.cfgOk
  fbLength := (h.fitted hi.fitted).2
  memWf := h.memWf hi.memWf
  handOff := by simp
  wiRange := h.wiRange hi.wiRange
  phaseIs := trivial

theorem Transition.inv {s t : State} (h : Transition s t) (hi : Inv s) : Inv t := by
  cases h with
  | absorbed => exact hi
  | newCycle hp hr => exact hi.beginCycle hp hr
  | advance ph hp hq hr ok => exact hi.setPhase hp hq hr (ok hi)
  | handOff => exact hi.xfer _ (send_run (addrValid_legal _))

/-- Every handler answers, as every collaborator call does (log entry 18). -/
theorem exec_next (i : Instr) (s : State) : ∃ t, exec i s = .next t := by
  cases i <;> exact ⟨_, rfl⟩

/-- No step stops in a state that meets the invariant: what the phase promises is what it needs (R26). -/
theorem Inv.step_next {s : State} (hi : Inv s) : ∃ t, step s = .next t := by
  have hk := hi.phaseIs
  cases hp : s.phase with
  | awaitLen => exact ⟨_, step_awaitLen hp⟩
  | awaitBody =>
    simp only [State.phaseOk, hp] at hk
    exact ⟨_, (step_awaitBody hp).trans (if_neg (by omega))⟩
  | verify =>
    simp only [State.phaseOk, State.holdsFrame, hp] at hk
    exact ⟨_, (step_verify hp).trans (if_neg (by omega))⟩
  | dispatch =>
    simp only [State.phaseOk, State.holdsFrame, hp] at hk
    obtain ⟨⟨h5, hcap⟩, hpass, -⟩ := hk
    exact ⟨_, (step_dispatch hp).trans (if_neg (by simp [hpass]; omega))⟩
  | exec =>
    simp only [State.phaseOk, hp] at hk
    obtain ⟨-, -, -, i, hf⟩ := hk
    obtain ⟨t, ht⟩ := exec_next i s
    exact ⟨t, (step_exec hp hf).trans ht⟩
  | handedOff => exact ⟨s, step_handedOff hp⟩

/-- Settles O39: the phase's promise excludes every fault (`Inv.step_next`), and each of the four transitions
keeps the invariant (`Transition.inv`). -/
theorem stepNeverStopsAndKeepsTheInvariant : Obligations.StepNeverStopsAndKeepsTheInvariant := by
  intro s hi
  obtain ⟨t, ht⟩ := hi.step_next
  exact ⟨t, ht, (step_transition ht).inv hi⟩

/-! ### Events, configuration and the hand-off -/

theorem Transition.cfg {s t : State} (h : Transition s t) : t.cfg = s.cfg := by
  cases h with
  | absorbed => rfl
  | newCycle _ hr => exact hr.cfg
  | advance _ _ _ hr _ => exact hr.cfg
  | handOff => rfl

/-- The transfer of a valid jump goes to the address after a valid one (R52, R173). -/
theorem eventOk_xfer {c : Cfg} {addr : W32} (h : isValid c addr = true) : eventOk c (.xfer (addr + 1)) := by
  simpa [eventOk] using h

/-- A step only adds events, each of them a call that keeps its contract. -/
theorem Transition.events {s t : State} (h : Transition s t) :
    ∃ evs, t.events = s.events ++ evs ∧ (s.fitted → ∀ ev, ev ∈ evs → eventOk s.cfg ev) := by
  cases h with
  | absorbed => exact ⟨[], by simp, by simp⟩
  | newCycle _ hr => exact hr.events
  | advance _ _ _ hr _ => exact hr.events
  | @handOff addr x _ _ hv =>
    refine ⟨[.tx (ackReply [addrValid]), .xfer (addr + 1)], by simp, fun hs ev hev => ?_⟩
    simp only [List.mem_cons, List.not_mem_nil, or_false] at hev
    obtain rfl | rfl := hev
    · exact eventOk_tx hs.1 (addrValid_legal _)
    · exact eventOk_xfer hv

/-- Settles O41, by `Transition.events`: under the invariant the contracts' premises hold. -/
theorem everyCallKeepsItsContract : Obligations.EveryCallKeepsItsContract := by
  intro s t hi h
  obtain ⟨evs, he, ho⟩ := (step_transition h).events
  exact ⟨evs, he, ho hi.fitted⟩

/-- Settles O43: no transition writes the configuration or drops an event. -/
theorem configurationStaysAndEventsGrow : Obligations.ConfigurationStaysAndEventsGrow := by
  intro s t h
  obtain ⟨evs, he, -⟩ := (step_transition h).events
  exact ⟨(step_transition h).cfg, evs, he⟩

/-- Settles O45: of the four transitions only the valid jump enters `HANDED_OFF` from outside. -/
theorem onlyValidJumpHandsOff : Obligations.OnlyValidJumpHandsOff := by
  intro s t hn h ht
  cases step_transition h with
  | absorbed hp => exact absurd hp hn
  | newCycle => simp at ht
  | advance _ _ hq _ _ => exact absurd (by simpa using ht) hq
  | @handOff addr x hp hf hv => exact ⟨hp, addr, x, hf, hv⟩

/-- Settles O6: the step's `EXEC` branch is the handler of the fetched command. -/
theorem stepRunsTheDecodedCommand : Obligations.StepRunsTheDecodedCommand :=
  fun _ _ hp hf => step_exec hp hf

end Sys2Proof.Machine
end

section
/-! PROOFS. The family of 10_state.md, third part: two runs of one command, on states that differ in what an
earlier frame has left in the engine (R29, R155). -/

namespace Sys2Proof.Machine

/-! ### Two runs side by side -/

/-- Two runs that began with the event sequences `E` and `E'` stand side by side: they agree on all a command may
depend on, and they have added the same events. -/
structure Alike (E E' : List Event) (s s' : State) : Prop where
  same : SameForCommands s s'
  events : ∃ evs, s.events = E ++ evs ∧ s'.events = E' ++ evs

section
variable {E E' : List Event} {s s' : State}

theorem Alike.answerAt (h : Alike E E' s s') (k : Nat) : s'.answerAt k = s.answerAt k :=
  answerAt_congr h.same.answers h.same.calls k

/-- Both runs make the same call. -/
theorem Alike.call {t t' : State} {ev : Event} (h : Alike E E' s s') (hs : SameForCommands t t')
    (he : t.events = s.events ++ [ev]) (he' : t'.events = s'.events ++ [ev]) : Alike E E' t t' := by
  obtain ⟨evs, h1, h2⟩ := h.events
  exact ⟨hs, evs ++ [ev], by simp [he, h1], by simp [he', h2]⟩

theorem send_alike (h : Alike E E' s s') (bs : List Byte) : Alike E E' (send bs s) (send bs s') :=
  h.call { h.same with } rfl rfl

theorem xfer_alike (h : Alike E E' s s') (a : W32) : Alike E E' (xfer a s) (xfer a s') :=
  h.call { h.same with } rfl rfl

theorem ropRead_alike (h : Alike E E' s s') : Alike E E' (ropRead s) (ropRead s') :=
  h.call { h.same with } rfl (by simp [h.same.rop])

/-- A driver call takes one answer in both runs. -/
theorem Alike.answers_tail (h : Alike E E' s s') : s'.answers.tail = s.answers.tail := by rw [h.same.answers]

theorem Alike.calls_succ (h : Alike E E' s s') : s'.calls + 1 = s.calls + 1 := by rw [h.same.calls]

theorem flUnlock_alike (h : Alike E E' s s') : Alike E E' (flUnlock s) (flUnlock s') :=
  h.call { h.same with
    flLocked := by simp [h.answerAt, h.same.calls], answers := h.answers_tail, calls := h.calls_succ } rfl
    (by simp [h.answerAt])

theorem flLock_alike (h : Alike E E' s s') : Alike E E' (flLock s) (flLock s') :=
  h.call { h.same with
    flLocked := by simp [h.answerAt, h.same.calls], answers := h.answers_tail, calls := h.calls_succ } rfl
    (by simp [h.answerAt])

theorem flErase_alike (h : Alike E E' s s') (req : EraseReq) :
    Alike E E' (flErase req s) (flErase req s') :=
  h.call { h.same with
    mem := by simp [h.answerAt, h.same.calls, h.same.mem, h.same.cfg]
    answers := h.answers_tail, calls := h.calls_succ } rfl (by simp [h.answerAt])

theorem flProg_alike (h : Alike E E' s s') (a : W32) (v : Byte) :
    Alike E E' (flProg a v s) (flProg a v s') :=
  h.call { h.same with
    mem := by simp [h.answerAt, h.same.calls, h.same.mem], answers := h.answers_tail, calls := h.calls_succ } rfl
    (by simp [h.answerAt])

theorem obUnlock_alike (h : Alike E E' s s') : Alike E E' (obUnlock s) (obUnlock s') :=
  h.call { h.same with
    obLocked := by simp [h.answerAt, h.same.calls], answers := h.answers_tail, calls := h.calls_succ } rfl
    (by simp [h.answerAt])

theorem obLock_alike (h : Alike E E' s s') : Alike E E' (obLock s) (obLock s') :=
  h.call { h.same with
    obLocked := by simp [h.answerAt, h.same.calls], answers := h.answers_tail, calls := h.calls_succ } rfl
    (by simp [h.answerAt])

theorem obProg_alike (h : Alike E E' s s') (k : SetLevel) : Alike E E' (obProg k s) (obProg k s') :=
  h.call { h.same with
    rop := by simp [h.answerAt, h.same.calls, h.same.rop], answers := h.answers_tail, calls := h.calls_succ } rfl
    (by simp [h.answerAt, h.same.cfg])

theorem obReload_alike (h : Alike E E' s s') (k : SetLevel) :
    Alike E E' (obReload k s) (obReload k s') :=
  h.call { h.same with
    rop := by simp [h.answerAt, h.same.calls, h.same.rop], answers := h.answers_tail, calls := h.calls_succ } rfl
    (by simp [h.answerAt])

/-! ### A status sees only its own flags (R196, R215, R235) -/

theorem eraseStatus_congr (hu : s'.u = s.u) (he : s'.e = s.e) (hl : s'.l = s.l) :
    s'.eraseStatus = s.eraseStatus := by
  rw [State.eraseStatus, hu, he, hl]; rfl

theorem writeStatus_congr (hu : s'.u = s.u) (hw : s'.w = s.w) (hl : s'.l = s.l) :
    s'.writeStatus = s.writeStatus := by
  rw [State.writeStatus, hu, hw, hl]; rfl

theorem ropStatus_congr (hu : s'.u = s.u) (hp : s'.p = s.p) (hr : s'.r = s.r) (hl : s'.l = s.l) :
    s'.ropStatus = s.ropStatus := by
  rw [State.ropStatus, hu, hp, hr, hl]; rfl

/-! ### The brackets: each flag is written before it is read (log entry 9) -/

theorem eraseStep_alike (h : Alike E E' s s') (hu : s'.u = s.u) (req : EraseReq) :
    Alike E E' (eraseStep req s) (eraseStep req s') ∧
      (eraseStep req s').u = (eraseStep req s).u ∧
      (eraseStep req s').e = (eraseStep req s).e := by
  unfold eraseStep
  rw [hu]
  split
  · exact ⟨flErase_alike h req, hu, h.answerAt 0⟩
  · exact ⟨⟨{ h.same with }, h.events⟩, hu, hu⟩

theorem eraseBracket_alike (h : Alike E E' s s') (req : EraseReq) :
    Alike E E' (eraseBracket req s) (eraseBracket req s') ∧
      (eraseBracket req s').eraseStatus = (eraseBracket req s).eraseStatus := by
  obtain ⟨ht, hu, he⟩ := eraseStep_alike (flUnlock_alike h) (h.answerAt 0) req
  unfold eraseBracket
  refine ⟨flLock_alike ht, eraseStatus_congr ?_ ?_ ?_⟩ <;> simp [hu, he, ht.answerAt]

theorem programLoop_alike (h : Alike E E' s s') (hw : s'.w = s.w) (hi : s'.wi = s.wi) (addr : W32)
    (d : List Byte) :
    Alike E E' (programLoop addr d s) (programLoop addr d s') ∧
      (programLoop addr d s').w = (programLoop addr d s).w := by
  induction d generalizing s s' with
  | nil => exact ⟨h, hw⟩
  | cons b d ih =>
    rw [programLoop, programLoop, hw, hi]
    split
    · have hp := flProg_alike h (addr + BitVec.ofNat 32 s.wi) b
      have ha := h.answerAt 0
      unfold countWritten
      rw [flProg_w, flProg_w, ha]
      split
      · exact ih ⟨{ hp.same with }, hp.events⟩ ha (congrArg (· + 1) hi)
      · exact ih hp ha hi
    · exact ⟨h, hw⟩

theorem writeStep_alike (h : Alike E E' s s') (hu : s'.u = s.u) (addr : W32) (d : List Byte) :
    Alike E E' (writeStep addr d s) (writeStep addr d s') ∧
      (writeStep addr d s').u = (writeStep addr d s).u ∧
      (writeStep addr d s').w = (writeStep addr d s).w := by
  have hb : Alike E E' (beginLoop s) (beginLoop s') := ⟨{ h.same with }, h.events⟩
  unfold writeStep
  rw [hu]
  split
  · obtain ⟨hl, hw⟩ := programLoop_alike hb rfl rfl addr d
    refine ⟨hl, ?_, hw⟩
    rw [(programLoop_frame addr d _).u, (programLoop_frame addr d _).u]
    exact hu
  · exact ⟨hb, hu, rfl⟩

theorem writeBracket_alike (h : Alike E E' s s') (addr : W32) (d : List Byte) :
    Alike E E' (writeBracket addr d s) (writeBracket addr d s') ∧
      (writeBracket addr d s').writeStatus = (writeBracket addr d s).writeStatus := by
  obtain ⟨ht, hu, hw⟩ := writeStep_alike (flUnlock_alike h) (h.answerAt 0) addr d
  unfold writeBracket
  refine ⟨flLock_alike ht, writeStatus_congr ?_ ?_ ?_⟩ <;> simp [hu, hw, ht.answerAt]

theorem ropProgramStep_alike (h : Alike E E' s s') (hu : s'.u = s.u) (k : SetLevel) :
    Alike E E' (ropProgramStep k s) (ropProgramStep k s') ∧
      (ropProgramStep k s').u = (ropProgramStep k s).u ∧
      (ropProgramStep k s').p = (ropProgramStep k s).p := by
  unfold ropProgramStep
  rw [hu]
  split
  · exact ⟨obProg_alike h k, hu, h.answerAt 0⟩
  · exact ⟨⟨{ h.same with }, h.events⟩, hu, rfl⟩

theorem ropReloadStep_alike (h : Alike E E' s s') (hu : s'.u = s.u) (hp : s'.p = s.p) (k : SetLevel) :
    Alike E E' (ropReloadStep k s) (ropReloadStep k s') ∧
      (ropReloadStep k s').u = (ropReloadStep k s).u ∧
      (ropReloadStep k s').p = (ropReloadStep k s).p ∧
      (ropReloadStep k s').r = (ropReloadStep k s).r := by
  unfold ropReloadStep
  rw [hu, hp]
  split
  · exact ⟨obReload_alike h k, hu, hp, h.answerAt 0⟩
  · exact ⟨⟨{ h.same with }, h.events⟩, hu, hp, rfl⟩

theorem ropBracket_alike (h : Alike E E' s s') (k : SetLevel) :
    Alike E E' (ropBracket k s) (ropBracket k s') ∧
      (ropBracket k s').ropStatus = (ropBracket k s).ropStatus := by
  obtain ⟨h1, hu1, hp1⟩ := ropProgramStep_alike (obUnlock_alike h) (h.answerAt 0) k
  obtain ⟨ht, hu, hp, hr⟩ := ropReloadStep_alike h1 hu1 hp1 k
  unfold ropBracket
  refine ⟨obLock_alike ht, ropStatus_congr ?_ ?_ ?_ ?_⟩ <;> simp [hu, hp, hr, ht.answerAt]

/-! ### The handlers -/

/-- What two runs of a command have in common at its end. -/
structure AlikeEnds (E E' : List Event) (t t' : State) : Prop extends Alike E E' t t' where
  phase : t'.phase = t.phase

/-- The same reply from both runs, and the next cycle. -/
theorem Alike.replied (h : Alike E E' s s') {bs bs' : List Byte} (hb : bs' = bs) :
    AlikeEnds E E' (beginCycle (send bs s)) (beginCycle (send bs' s')) := by
  subst hb
  obtain ⟨hs, he⟩ := send_alike h bs'
  exact ⟨⟨{ hs with }, he⟩, rfl⟩

theorem execJumpToAddress_alike {t t' : State} {addr : W32} (h : Alike E E' s s')
    (ht : execJumpToAddress addr s = .next t) (ht' : execJumpToAddress addr s' = .next t') :
    AlikeEnds E E' t t' := by
  unfold execJumpToAddress at ht ht'
  cases ht
  cases ht'
  rw [h.same.cfg]
  split
  · exact ⟨xfer_alike (send_alike h _) _, rfl⟩
  · exact h.replied rfl

theorem execEraseFlash_alike {t t' : State} {pidx pcnt : Byte} (h : Alike E E' s s')
    (ht : execEraseFlash pidx pcnt s = .next t) (ht' : execEraseFlash pidx pcnt s' = .next t') :
    AlikeEnds E E' t t' := by
  unfold execEraseFlash at ht ht'
  cases ht
  cases ht'
  rw [h.same.cfg]
  split
  · obtain ⟨hb, hs⟩ := eraseBracket_alike h (eraseRequest s.cfg pidx pcnt)
    exact hb.replied (by rw [hs])
  · exact h.replied rfl

theorem execMemoryWrite_alike {t t' : State} {addr : W32} {d : List Byte} (h : Alike E E' s s')
    (ht : execMemoryWrite addr d s = .next t) (ht' : execMemoryWrite addr d s' = .next t') :
    AlikeEnds E E' t t' := by
  unfold execMemoryWrite at ht ht'
  cases ht
  cases ht'
  rw [h.same.cfg]
  split
  · obtain ⟨hb, hs⟩ := writeBracket_alike h addr d
    exact hb.replied (by rw [hs])
  · exact h.replied rfl

theorem execDisableRwProtect_alike {t t' : State} {lvl : Byte} (h : Alike E E' s s')
    (ht : execDisableRwProtect lvl s = .next t) (ht' : execDisableRwProtect lvl s' = .next t') :
    AlikeEnds E E' t t' := by
  unfold execDisableRwProtect at ht ht'
  cases ht
  cases ht'
  cases requestedLevel lvl with
  | some k =>
    obtain ⟨hb, hs⟩ := ropBracket_alike h k
    exact hb.replied (by rw [hs])
  | none => exact h.replied rfl

theorem exec_alike {t t' : State} (i : Instr) (h : Alike E E' s s') (ht : exec i s = .next t)
    (ht' : exec i s' = .next t') : AlikeEnds E E' t t' := by
  cases i with
  | getVersion x => cases ht; cases ht'; exact h.replied (by rw [h.same.cfg])
  | getHelp x => cases ht; cases ht'; exact h.replied rfl
  | getChipId x => cases ht; cases ht'; exact h.replied (by rw [h.same.cfg])
  | getProtectionStatus x =>
    cases ht; cases ht'; exact (ropRead_alike h).replied (by rw [h.same.rop])
  | jumpToAddress addr x => exact execJumpToAddress_alike h ht ht'
  | eraseFlash pidx pcnt x => exact execEraseFlash_alike h ht ht'
  | memoryWrite addr d x => exact execMemoryWrite_alike h ht ht'
  | enableRwProtect x => cases ht; cases ht'; exact h.replied rfl
  | memoryRead x => cases ht; cases ht'; exact h.replied rfl
  | getPageProtectionStatus x => cases ht; cases ht'; exact h.replied rfl
  | readOtp x => cases ht; cases ht'; exact h.replied rfl
  | disableRwProtect lvl x => exact execDisableRwProtect_alike h ht ht'

end

/-- Settles O47: the two runs stand side by side from the start, with no event added yet, and every handler
keeps them so (`exec_alike`). -/
theorem commandsSeeNoEarlierFrame : Obligations.CommandsSeeNoEarlierFrame := by
  intro i s s' t t' hs ht ht'
  obtain ⟨⟨same, events⟩, phase⟩ := exec_alike i (E := s.events) (E' := s'.events)
    ⟨hs, [], by simp, by simp⟩ ht ht'
  exact ⟨same, phase, events⟩

end Sys2Proof.Machine
end

section
/-! PROOFS. The family of 10_state.md, fourth part: resets (R55, R290 to R293). -/

namespace Sys2Proof.Machine

/-- After a launched application has taken over, the engine makes no step of its own (R174, R291). -/
theorem runSteps_handedOff {s : State} (h : s.phase = .handedOff) (k : Nat) : runSteps k s = .next s := by
  induction k with
  | zero => rfl
  | succ k ih => rw [runSteps, step_handedOff h]; exact ih

/-- A boot mode starts with `handed_off` set exactly where it starts in `HANDED_OFF` (R27, R291). -/
theorem BootMode.handedOff_iff (mode : BootMode) : mode.handedOff = true ↔ mode.phase = .handedOff := by
  cases mode <;> simp [BootMode.handedOff, BootMode.phase]

/-- What a boot mode's first phase promises is what a reset sets up (R55, R134). -/
theorem resetFrom_phaseOk (mode : BootMode) (s : State) : (s.resetFrom mode).phaseOk := by
  cases mode with
  | engine => exact ⟨rfl, rfl⟩
  | launchApp => trivial

/-- Settles O50, field by field. -/
theorem resetRestoresTheInvariant : Obligations.ResetRestoresTheInvariant := by
  intro mode s hc hm
  exact {
    cfgOk := hc
    fbLength := List.length_replicate
    memWf := Memory.keepRange_wf hm _ _
    handOff := mode.handedOff_iff
    wiRange := Nat.zero_le _
    phaseIs := resetFrom_phaseOk mode s }

/-- Settles O49: the flash bytes by `resetFrom_read`, the launched application by `runSteps_handedOff`. -/
theorem resetKeepsWhatPersists : Obligations.ResetKeepsWhatPersists := by
  intro mode s
  refine ⟨rfl, rfl, fun a => resetFrom_read mode, rfl, rfl, rfl, ?_⟩
  cases mode with
  | engine => exact ⟨rfl, rfl⟩
  | launchApp => exact ⟨rfl, runSteps_handedOff rfl⟩

/-- The machine right after reset is what a reset leaves of it, so it meets the invariant as any reset does. -/
theorem reset_inv : Inv State.reset :=
  resetRestoresTheInvariant .engine State.reset (by decide) ⟨.nil, by simp [State.reset]⟩

/-- Settles O38: the invariant by `reset_inv`, and no event has opened a bracket. -/
theorem resetMeetsTheInvariant : Obligations.ResetMeetsTheInvariant := ⟨reset_inv, rfl⟩

/-- Settles O48: the line is silent after reset, so the first step is the receive that times out. -/
theorem resetWaitsForALengthByte : Obligations.ResetWaitsForALengthByte :=
  ⟨rfl, rfl, rfl, rfl, rfl, rfl, beginCycle (recv 1 State.reset), .timeout, rfl, rfl⟩

end Sys2Proof.Machine
end

section
/-! PROOFS. The family of 20_memory.md, first part: what a step before a handler does, what a handler does before
its reply, and what follows for every step and every command. -/

namespace Sys2Proof.Machine

/-! ### Added events -/

/-- Between the two states only events with the property have been added. -/
def AddsOnly (P : Event → Prop) (s t : State) : Prop :=
  ∃ evs, t.events = s.events ++ evs ∧ ∀ ev, ev ∈ evs → P ev

section
variable {P : Event → Prop} {s t v : State}

theorem AddsOnly.silent (h : t.events = s.events) : AddsOnly P s t := ⟨[], by simp [h], by simp⟩

theorem AddsOnly.call {ev : Event} (h : t.events = s.events ++ [ev]) (hP : P ev) : AddsOnly P s t :=
  ⟨[ev], h, fun _ he => List.mem_singleton.mp he ▸ hP⟩

theorem AddsOnly.trans (h : AddsOnly P s t) (g : AddsOnly P t v) : AddsOnly P s v := by
  obtain ⟨es, he, hP⟩ := h
  obtain ⟨fs, hf, hQ⟩ := g
  refine ⟨es ++ fs, by rw [hf, he, List.append_assoc], fun ev hev => ?_⟩
  exact (List.mem_append.mp hev).elim (hP ev) (hQ ev)

end

/-! ### The phases before a handler (R270) -/

/-- What the phases before a handler leave alone: the device and its answers; and they make no call on a driver
or the platform. -/
structure FrontRun (s t : State) : Prop extends SameDevice s t where
  answers : t.answers = s.answers
  calls : t.calls = s.calls
  added : AddsOnly (fun ev => ev.isHandlerCall = false) s t

theorem FrontRun.refl (s : State) : FrontRun s s := ⟨⟨rfl, rfl, rfl, fun _ => rfl⟩, rfl, rfl, .silent rfl⟩

theorem FrontRun.trans {s t v : State} (h : FrontRun s t) (g : FrontRun t v) : FrontRun s v where
  flLocked := g.flLocked.trans h.flLocked
  obLocked := g.obLocked.trans h.obLocked
  rop := g.rop.trans h.rop
  mem a := (g.mem a).trans (h.mem a)
  answers := g.answers.trans h.answers
  calls := g.calls.trans h.calls
  added := h.added.trans g.added

theorem recv_front (n : Nat) (s : State) : FrontRun s (recv n s) :=
  ⟨⟨rfl, rfl, rfl, fun _ => rfl⟩, rfl, rfl, .call rfl rfl⟩

theorem storeFb_front (pos : Nat) (bs : List Byte) (s : State) : FrontRun s (storeFb pos bs s) :=
  ⟨⟨rfl, rfl, rfl, fun _ => rfl⟩, rfl, rfl, .silent rfl⟩

theorem checkCrc_front (s : State) : FrontRun s (checkCrc s) :=
  ⟨⟨rfl, rfl, rfl, fun _ => rfl⟩, rfl, rfl, .call rfl rfl⟩

theorem setPhase_front (ph : Phase) (s : State) : FrontRun s (setPhase ph s) :=
  ⟨⟨rfl, rfl, rfl, fun _ => rfl⟩, rfl, rfl, .silent rfl⟩

theorem beginCycle_front (s : State) : FrontRun s (beginCycle s) :=
  ⟨⟨rfl, rfl, rfl, fun _ => rfl⟩, rfl, rfl, .silent rfl⟩

/-- A reply, and the next cycle. -/
theorem replied_front (bs : List Byte) (s : State) : FrontRun s (beginCycle (send bs s)) :=
  ⟨⟨rfl, rfl, rfl, fun _ => rfl⟩, rfl, rfl, .call rfl rfl⟩

theorem awaitLenStep_front {s t : State} (h : awaitLenStep s = .next t) : FrontRun s t := by
  have hr := recv_front 1 s
  obtain ⟨-, e⟩ | ⟨b, -, hb⟩ := awaitLenStep_cases s
  · rw [e] at h; cases h
    exact hr.trans (beginCycle_front _)
  have hs := hr.trans (storeFb_front 0 [b] _)
  obtain ⟨-, e⟩ | ⟨-, -, e⟩ | ⟨-, -, e⟩ := hb <;> rw [e] at h <;> cases h
  · exact hs.trans (replied_front _ _)
  · exact hs.trans (replied_front _ _)
  · exact hs.trans (setPhase_front _ _)

theorem awaitBodyStep_front {s t : State} (h : awaitBodyStep s = .next t) : FrontRun s t := by
  have hr := recv_front s.lenLatch s
  obtain ⟨-, e⟩ | ⟨-, -, ⟨-, e⟩ | ⟨bs, -, -, ⟨-, e⟩ | ⟨-, e⟩⟩⟩ := awaitBodyStep_cases s <;>
    rw [e] at h <;> cases h
  · exact hr.trans (beginCycle_front _)
  · exact (hr.trans (storeFb_front 1 bs _)).trans (replied_front _ _)
  · exact (hr.trans (storeFb_front 1 bs _)).trans (setPhase_front _ _)

theorem verifyStep_front {s t : State} (h : verifyStep s = .next t) : FrontRun s t := by
  obtain ⟨-, e⟩ | ⟨-, ⟨-, e⟩ | ⟨-, e⟩⟩ := verifyStep_cases s <;> rw [e] at h <;> cases h
  · exact (checkCrc_front s).trans (setPhase_front _ _)
  · exact (checkCrc_front s).trans (replied_front _ _)

theorem dispatchStep_front {s t : State} (h : dispatchStep s = .next t) : FrontRun s t := by
  obtain ⟨-, e⟩ | ⟨-, -, ⟨-, e⟩ | ⟨-, -, e⟩ | ⟨-, -, e⟩⟩ := dispatchStep_cases s <;>
    rw [e] at h <;> cases h
  · exact beginCycle_front s
  · exact replied_front _ s
  · exact setPhase_front _ s

/-- A step in any phase but `EXEC` is of the front end; one in `EXEC` is a handler. -/
theorem step_front_or_exec {s t : State} (h : step s = .next t) :
    (s.phase ≠ .exec ∧ FrontRun s t) ∨ (s.phase = .exec ∧ ∃ i, s.fetch = .instr i ∧ exec i s = .next t) := by
  cases hp : s.phase with
  | awaitLen => exact .inl ⟨by simp, awaitLenStep_front (step_awaitLen hp ▸ h)⟩
  | awaitBody => exact .inl ⟨by simp, awaitBodyStep_front (step_awaitBody hp ▸ h)⟩
  | verify => exact .inl ⟨by simp, verifyStep_front (step_verify hp ▸ h)⟩
  | dispatch => exact .inl ⟨by simp, dispatchStep_front (step_dispatch hp ▸ h)⟩
  | exec =>
    cases hf : s.fetch with
    | instr i => exact .inr ⟨rfl, i, rfl, step_exec hp hf ▸ h⟩
    | rejected why => rw [step_exec_rejected hp hf] at h; cases h
  | handedOff =>
    rw [step_handedOff hp] at h
    cases h
    exact .inl ⟨by simp, .refl s⟩

/-! ### What a handler does before its reply -/

/-- What a handler does before its reply (R70): nothing, one read of the level, or one of the three brackets. -/
inductive HandlerRun (s : State) : State → Prop where
  | quiet : HandlerRun s s
  | readLevel : HandlerRun s (ropRead s)
  | erase (req : EraseReq) : HandlerRun s (eraseBracket req s)
  | write (addr : W32) (d : List Byte) : HandlerRun s (writeBracket addr d s)
  | changeLevel (k : SetLevel) : HandlerRun s (ropBracket k s)

/-- Every command replies after its run and begins the next cycle, but a valid jump, which replies and transfers
control (R132, R172). -/
theorem exec_cases {i : Instr} {s t : State} (h : exec i s = .next t) :
    (∃ v bs, HandlerRun s v ∧ t = beginCycle (send bs v)) ∨
      ∃ addr x, i = .jumpToAddress addr x ∧ isValid s.cfg addr = true ∧
        t = xfer (addr + 1) (send (ackReply [addrValid]) s) := by
  cases i with
  | getVersion x => cases h; exact .inl ⟨s, _, .quiet, rfl⟩
  | getHelp x => cases h; exact .inl ⟨s, _, .quiet, rfl⟩
  | getChipId x => cases h; exact .inl ⟨s, _, .quiet, rfl⟩
  | getProtectionStatus x => cases h; exact .inl ⟨_, _, .readLevel, rfl⟩
  | jumpToAddress addr x =>
    cases h
    split
    · exact .inr ⟨addr, x, rfl, ‹_›, rfl⟩
    · exact .inl ⟨s, _, .quiet, rfl⟩
  | eraseFlash pidx pcnt x =>
    cases h
    split
    · exact .inl ⟨_, _, .erase _, rfl⟩
    · exact .inl ⟨s, _, .quiet, rfl⟩
  | memoryWrite addr d x =>
    cases h
    split
    · exact .inl ⟨_, _, .write addr d, rfl⟩
    · exact .inl ⟨s, _, .quiet, rfl⟩
  | enableRwProtect x => cases h; exact .inl ⟨s, _, .quiet, rfl⟩
  | memoryRead x => cases h; exact .inl ⟨s, _, .quiet, rfl⟩
  | getPageProtectionStatus x => cases h; exact .inl ⟨s, _, .quiet, rfl⟩
  | readOtp x => cases h; exact .inl ⟨s, _, .quiet, rfl⟩
  | disableRwProtect lvl x =>
    cases h
    cases requestedLevel lvl with
    | some k => exact .inl ⟨_, _, .changeLevel k, rfl⟩
    | none => exact .inl ⟨s, _, .quiet, rfl⟩

/-! ### The brackets stay closed (R71, R72) -/

/-- Where the state's event sequence stands with respect to the brackets. -/
def State.bracket (s : State) : Bracket := bracketAfter s.events

/-- One more event moves the bracket by its own rule. -/
theorem bracket_of_call {s t : State} {ev : Event} (h : t.events = s.events ++ [ev]) :
    t.bracket = s.bracket.next ev := by
  simp [State.bracket, bracketAfter, h]

/-- Only a call on a driver moves a closed bracket. -/
theorem Bracket.next_closed {ev : Event} (h : ev.isHandlerCall = false) :
    Bracket.next .closed ev = .closed := by
  cases ev with
  | rx n r => rfl
  | tx bs => rfl
  | crc bs c => rfl
  | _ => cases h

/-- A closed bracket stays closed while no call on a driver is made. -/
theorem AddsOnly.bracket_closed {s t : State} (h : AddsOnly (fun ev => ev.isHandlerCall = false) s t)
    (hc : s.bracket = .closed) : t.bracket = .closed := by
  obtain ⟨evs, he, hev⟩ := h
  have hfold : evs.foldl Bracket.next .closed = .closed := by
    clear he
    induction evs with
    | nil => rfl
    | cons ev evs ih =>
      rw [List.foldl_cons, Bracket.next_closed (hev ev (by simp))]
      exact ih fun e h => hev e (by simp [h])
  rw [State.bracket, bracketAfter] at hc ⊢
  rw [he, List.foldl_append, hc, hfold]

theorem flUnlock_bracket {s : State} (h : s.bracket = .closed) :
    (flUnlock s).bracket = match s.answerAt 0 with
      | .ok => .flashOpen
      | .fail => .flashSpent := by
  rw [bracket_of_call (flUnlock_events s), h]
  cases s.answerAt 0 <;> rfl

/-- The lock closes a flash bracket in either state. -/
theorem flLock_bracket {s : State} (h : s.bracket = .flashOpen ∨ s.bracket = .flashSpent) :
    (flLock s).bracket = .closed := by
  rw [bracket_of_call (flLock_events s)]
  obtain h | h := h <;> rw [h] <;> rfl

theorem eraseBracket_closed (req : EraseReq) {s : State} (h : s.bracket = .closed) :
    (eraseBracket req s).bracket = .closed := by
  have hu := flUnlock_bracket h
  refine flLock_bracket ?_
  obtain ⟨ha, -, e⟩ | ⟨-, e⟩ := eraseStep_cases req (flUnlock s) <;> rw [e]
  · rw [flUnlock_u] at ha
    rw [ha] at hu
    exact .inr ((bracket_of_call (flErase_events req _)).trans (by rw [hu]; rfl))
  · change (flUnlock s).bracket = _ ∨ (flUnlock s).bracket = _
    rw [hu]
    cases s.answerAt 0 <;> simp

/-- The loop programs only inside an open bracket, and stops at the call that spends it (R213, R214). -/
theorem programLoop_bracket (addr : W32) (d : List Byte) {s : State} (hw : s.w = .ok)
    (h : s.bracket = .flashOpen) :
    (programLoop addr d s).bracket = .flashOpen ∨ (programLoop addr d s).bracket = .flashSpent := by
  induction d generalizing s with
  | nil => exact .inl h
  | cons b d ih =>
    have hb := bracket_of_call (flProg_events (addr + BitVec.ofNat 32 s.wi) b s)
    cases ha : s.answerAt 0 with
    | ok =>
      rw [programLoop_ok addr b d hw ha]
      rw [h, ha] at hb
      exact ih ha hb
    | fail =>
      rw [programLoop_fail addr b d hw ha]
      rw [h, ha] at hb
      exact .inr hb

theorem writeBracket_closed (addr : W32) (d : List Byte) {s : State} (h : s.bracket = .closed) :
    (writeBracket addr d s).bracket = .closed := by
  have hu := flUnlock_bracket h
  refine flLock_bracket ?_
  rw [writeStep, flUnlock_u]
  cases ha : s.answerAt 0 with
  | ok =>
    rw [ha] at hu
    exact programLoop_bracket addr d rfl hu
  | fail =>
    rw [ha] at hu
    exact .inr hu

/-- What the option-byte bracket is, by the answers of its first two calls (R231, R234). -/
theorem ropBracket_cases (k : SetLevel) (s : State) :
    (s.answerAt 0 = .fail ∧
        ropBracket k s = obLock (skipReload (skipProgram (obUnlock s)))) ∨
      (s.answerAt 0 = .ok ∧ s.answerAt 1 = .fail ∧
        ropBracket k s = obLock (skipReload (obProg k (obUnlock s)))) ∨
      (s.answerAt 0 = .ok ∧ s.answerAt 1 = .ok ∧
        ropBracket k s = obLock (obReload k (obProg k (obUnlock s)))) := by
  unfold ropBracket
  obtain ⟨h0, e⟩ | ⟨h0, e⟩ := ropProgramStep_cases k (obUnlock s) <;> rw [e] <;>
    rw [obUnlock_u] at h0
  · obtain ⟨-, h1, e⟩ | ⟨h1, e⟩ := ropReloadStep_cases k (obProg k (obUnlock s)) <;> rw [e]
    · exact .inr (.inr ⟨h0, by simpa using h1, rfl⟩)
    · exact .inr (.inl ⟨h0, by simpa [h0] using h1, rfl⟩)
  · refine .inl ⟨h0, ?_⟩
    rw [ropReloadStep, if_neg (by simp)]

theorem ropBracket_closed (k : SetLevel) {s : State} (h : s.bracket = .closed) :
    (ropBracket k s).bracket = .closed := by
  have hu := bracket_of_call (obUnlock_events s)
  have hp := bracket_of_call (obProg_events k (obUnlock s))
  have hr := bracket_of_call (obReload_events k (obProg k (obUnlock s)))
  obtain ⟨h0, e⟩ | ⟨h0, h1, e⟩ | ⟨h0, h1, e⟩ := ropBracket_cases k s <;>
    rw [e, bracket_of_call (obLock_events _)]
  · change ((obUnlock s).bracket.next _) = _
    rw [hu, h, h0]; rfl
  · change ((obProg k (obUnlock s)).bracket.next _) = _
    rw [hp, hu, h, obUnlock_answerAt, h0, h1]; rfl
  · rw [hr, hp, hu, h, obUnlock_answerAt, h0, h1]; rfl

theorem HandlerRun.bracket_closed {s v : State} (h : HandlerRun s v) (hc : s.bracket = .closed) :
    v.bracket = .closed := by
  cases h with
  | quiet => exact hc
  | readLevel => rw [bracket_of_call (ropRead_events s), hc]; rfl
  | erase req => exact eraseBracket_closed req hc
  | write addr d => exact writeBracket_closed addr d hc
  | changeLevel k => exact ropBracket_closed k hc

theorem exec_bracket_closed {i : Instr} {s t : State} (h : exec i s = .next t)
    (hc : s.bracket = .closed) : t.bracket = .closed := by
  obtain ⟨v, bs, hv, rfl⟩ | ⟨addr, x, -, -, rfl⟩ := exec_cases h
  · exact (replied_front bs v).added.bracket_closed (hv.bracket_closed hc)
  · have hs := bracket_of_call (send_events (ackReply [addrValid]) s)
    rw [bracket_of_call (xfer_events _ _), hs, hc]
    rfl

/-- Settles O40: the front end calls no driver (`step_front_or_exec`), and each handler closes the one bracket it
may open (`HandlerRun.bracket_closed`). -/
theorem bracketsStayClosed : Obligations.BracketsStayClosed := by
  intro s t hc h
  obtain ⟨-, hf⟩ | ⟨-, i, -, he⟩ := step_front_or_exec h
  · exact hf.added.bracket_closed hc
  · exact exec_bracket_closed he hc

/-! ### Level 2 is never set (R68, R233) -/

/-- The level-change bracket leaves the level as it was or as requested (R68). -/
theorem ropBracket_rop (k : SetLevel) (s : State) :
    (ropBracket k s).rop = s.rop ∨ (ropBracket k s).rop = k.toLevel := by
  have hp : (obProg k (obUnlock s)).rop = s.rop ∨ (obProg k (obUnlock s)).rop = k.toLevel := by
    rw [obProg_rop]
    split
    · exact .inl rfl
    · exact freeLevel_cases _ _ _
  obtain ⟨-, e⟩ | ⟨-, -, e⟩ | ⟨-, -, e⟩ := ropBracket_cases k s <;> rw [e, obLock_rop]
  · exact .inl rfl
  · exact hp
  · rw [obReload_rop]
    split
    · exact .inr rfl
    · obtain e | e := freeLevel_cases (obProg k (obUnlock s)).calls (obProg k (obUnlock s)).rop k <;>
        rw [e]
      · exact hp
      · exact .inr rfl

theorem eraseBracket_rop (req : EraseReq) (s : State) : (eraseBracket req s).rop = s.rop := by
  rw [eraseBracket, flLock_rop]
  obtain ⟨-, -, e⟩ | ⟨-, e⟩ := eraseStep_cases req (flUnlock s) <;> rw [e] <;> rfl

theorem beginLoop_frame (s : State) : LoopFrame s (beginLoop s) := by constructor <;> rfl

theorem writeStep_frame (addr : W32) (d : List Byte) (s : State) : LoopFrame s (writeStep addr d s) := by
  unfold writeStep
  split
  · exact (beginLoop_frame s).trans (programLoop_frame addr d _)
  · exact beginLoop_frame s

theorem HandlerRun.rop_levelTwo {s v : State} (h : HandlerRun s v) (h2 : v.rop = .level2) :
    s.rop = .level2 := by
  cases h with
  | quiet => exact h2
  | readLevel => exact h2
  | erase req => exact eraseBracket_rop req s ▸ h2
  | write addr d => exact (writeStep_frame addr d (flUnlock s)).rop ▸ h2
  | changeLevel k =>
    obtain e | e := ropBracket_rop k s <;> rw [e] at h2
    · exact h2
    · cases k <;> cases h2

/-- Settles O42: the front end leaves the level alone, and the only level a handler's run may set is a requested
one (`ropBracket_rop`). -/
theorem noStepSetsLevelTwo : Obligations.NoStepSetsLevelTwo := by
  intro s t h h2
  obtain ⟨-, hf⟩ | ⟨-, i, -, he⟩ := step_front_or_exec h
  · exact hf.rop ▸ h2
  · obtain ⟨v, bs, hv, rfl⟩ | ⟨addr, x, -, -, rfl⟩ := exec_cases he
    · exact hv.rop_levelTwo h2
    · exact h2

/-! ### One reply, after every driver call (R70, R132) -/

/-- A call on a driver: neither a transmission, nor of the front end, nor a transfer. -/
def Event.isDriverCall (ev : Event) : Prop :=
  ev.isTx = false ∧ ev.isFrontEnd = false ∧ ev.isXfer = false

theorem programLoop_adds (addr : W32) (d : List Byte) (s : State) :
    AddsOnly Event.isDriverCall s (programLoop addr d s) := by
  induction d generalizing s with
  | nil => exact .silent rfl
  | cons b d ih =>
    rw [programLoop]
    split
    · have hp : AddsOnly Event.isDriverCall s (flProg (addr + BitVec.ofNat 32 s.wi) b s) :=
        .call rfl ⟨rfl, rfl, rfl⟩
      refine hp.trans (.trans (.silent ?_) (ih _))
      rw [countWritten]
      split <;> rfl
    · exact .silent rfl

theorem flUnlock_adds (s : State) : AddsOnly Event.isDriverCall s (flUnlock s) := .call rfl ⟨rfl, rfl, rfl⟩

theorem flLock_adds (s : State) : AddsOnly Event.isDriverCall s (flLock s) := .call rfl ⟨rfl, rfl, rfl⟩

theorem eraseBracket_adds (req : EraseReq) (s : State) :
    AddsOnly Event.isDriverCall s (eraseBracket req s) := by
  refine ((flUnlock_adds s).trans ?_).trans (flLock_adds _)
  obtain ⟨-, -, e⟩ | ⟨-, e⟩ := eraseStep_cases req (flUnlock s) <;> rw [e]
  · exact .call rfl ⟨rfl, rfl, rfl⟩
  · exact .silent rfl

theorem writeBracket_adds (addr : W32) (d : List Byte) (s : State) :
    AddsOnly Event.isDriverCall s (writeBracket addr d s) := by
  refine ((flUnlock_adds s).trans ?_).trans (flLock_adds _)
  rw [writeStep]
  split
  · exact (AddsOnly.silent (t := beginLoop _) rfl).trans (programLoop_adds addr d _)
  · exact .silent rfl

theorem ropBracket_adds (k : SetLevel) (s : State) : AddsOnly Event.isDriverCall s (ropBracket k s) := by
  have hu : AddsOnly Event.isDriverCall s (obUnlock s) := .call rfl ⟨rfl, rfl, rfl⟩
  have hp : AddsOnly Event.isDriverCall s (obProg k (obUnlock s)) := hu.trans (.call rfl ⟨rfl, rfl, rfl⟩)
  have hl (v : State) : AddsOnly Event.isDriverCall v (obLock v) := .call rfl ⟨rfl, rfl, rfl⟩
  obtain ⟨-, e⟩ | ⟨-, -, e⟩ | ⟨-, -, e⟩ := ropBracket_cases k s <;> rw [e] <;> refine .trans ?_ (hl _)
  · exact hu.trans (.silent rfl)
  · exact hp.trans (.silent rfl)
  · exact hp.trans (.call rfl ⟨rfl, rfl, rfl⟩)

theorem HandlerRun.adds {s v : State} (h : HandlerRun s v) : AddsOnly Event.isDriverCall s v := by
  cases h with
  | quiet => exact .silent rfl
  | readLevel => exact .call rfl ⟨rfl, rfl, rfl⟩
  | erase req => exact eraseBracket_adds req s
  | write addr d => exact writeBracket_adds addr d s
  | changeLevel k => exact ropBracket_adds k s

/-- Settles O46: before its reply a handler only calls drivers (`HandlerRun.adds`), and only the valid jump makes a
call after it (`exec_cases`). -/
theorem oneReplyAfterAllDriverCalls : Obligations.OneReplyAfterAllDriverCalls := by
  intro i s t h
  obtain ⟨v, bs, hv, rfl⟩ | ⟨addr, x, hi, hv, rfl⟩ := exec_cases h
  · obtain ⟨evs, he, hd⟩ := hv.adds
    exact .inl ⟨evs, bs, by simp [he], hd⟩
  · refine .inr ⟨addr, x, hi, hv, ackReply [addrValid], ?_⟩
    simp [progAddress addr 1]

end Sys2Proof.Machine
end

section
/-! PROOFS. The family of 20_memory.md, second part: what an erase, a write and a level change do to memory and to
the level, call by call. -/

namespace Sys2Proof.Machine

/-! ### The pages of an erase request (R67) -/

/-- A byte of the `n` pages from page `f` on is a byte of one of them. -/
theorem exists_page_iff (base size f n a : Nat) :
    (∃ p, (f ≤ p ∧ p < f + n) ∧ base + p * size ≤ a ∧ a < base + (p + 1) * size) ↔
      base + f * size ≤ a ∧ a < base + f * size + n * size := by
  constructor
  · rintro ⟨p, ⟨hf, hn⟩, h1, h2⟩
    have hlo : f * size ≤ p * size := Nat.mul_le_mul_right _ hf
    have hhi : (p + 1) * size ≤ (f + n) * size := Nat.mul_le_mul_right _ hn
    rw [Nat.add_mul f] at hhi
    omega
  · rintro ⟨h1, h2⟩
    have hpos : 0 < size := Nat.pos_of_ne_zero (by rintro rfl; simp at h1 h2; omega)
    have hlo : (a - base) / size * size ≤ a - base := Nat.div_mul_le_self _ _
    have hhi : a - base < (a - base) / size * size + size := Nat.lt_div_mul_add hpos
    refine ⟨(a - base) / size, ⟨?_, ?_⟩, by omega, by rw [Nat.succ_mul]; omega⟩
    · exact (Nat.le_div_iff_mul_le hpos).mpr (by omega)
    · exact (Nat.div_lt_iff_lt_mul hpos).mpr (by rw [Nat.add_mul]; omega)

/-- The bytes of the pages a request names are those of its range that exist (R60, R67). -/
theorem EraseReq.named_iff (c : Cfg) (req : EraseReq) (a : Nat) :
    (∃ p, req.names c p ∧ inPage c p a) ↔
      req.base c ≤ a ∧ a < req.base c + req.size c ∧ a < addressLimit := by
  have hpages (f n : Nat) : (∃ p, (f ≤ p ∧ p < f + n) ∧ inPage c p a) ↔
      c.flashBase.toNat + f * c.pageSize ≤ a ∧
        a < c.flashBase.toNat + f * c.pageSize + n * c.pageSize ∧ a < addressLimit := by
    have h := exists_page_iff c.flashBase.toNat c.pageSize f n a
    simp only [inPage, ← and_assoc, exists_and_right] at h ⊢
    rw [h]
  cases req with
  | mass => simpa [EraseReq.names, EraseReq.base, EraseReq.size] using hpages 0 c.maxPage
  | pages first count => exact hpages first count

/-! ### The erase bracket's effect on memory -/

/-- R192's count check and R193's index check, as numbers. -/
theorem eraseAllowed_of_le {c : Cfg} {pidx pcnt : Byte} (hc : pcnt.toNat ≤ c.maxPage)
    (hi : pidx = 0xFF ∨ pidx.toNat < c.maxPage) : eraseAllowed c pidx pcnt = true := by
  simp only [eraseAllowed, Bool.and_eq_true, Bool.or_eq_true, decide_eq_true_eq]
  exact ⟨hc, hi⟩

/-- The clamped request of a page and a count above 0 names a page (R194, R195). -/
theorem eraseRequest_nonempty {c : Cfg} {pidx pcnt : Byte}
    (h : pidx = 0xFF ∨ (pidx.toNat < c.maxPage ∧ pcnt ≠ 0)) :
    (eraseRequest c pidx pcnt).isEmpty = false := by
  unfold eraseRequest
  by_cases hm : pidx = massErase
  · rw [if_pos hm]; rfl
  · obtain ⟨hi, hn⟩ := h.resolve_left hm
    have : pcnt.toNat ≠ 0 := fun h0 => hn (BitVec.eq_of_toNat_eq h0)
    rw [if_neg hm]
    simp only [EraseReq.isEmpty, decide_eq_false_iff_not]
    omega

/-- ERASE_FLASH with an allowed request runs its bracket and replies with its status (R191). -/
theorem exec_eraseFlash {pidx pcnt : Byte} {s : State} (h : eraseAllowed s.cfg pidx pcnt = true)
    (x : List Byte) :
    exec (.eraseFlash pidx pcnt x) s =
      .next (beginCycle (send
        [0xCD, 0x01, (eraseBracket (eraseRequest s.cfg pidx pcnt) s).eraseStatus]
        (eraseBracket (eraseRequest s.cfg pidx pcnt) s))) := by
  rw [exec, execEraseFlash, if_pos h]; rfl

/-- With the unlock's answer `ok` and a page to erase, the bracket is unlock, erase and lock (R196). -/
theorem eraseBracket_unlocked {req : EraseReq} {s : State} (h0 : s.answerAt 0 = .ok)
    (he : req.isEmpty = false) : eraseBracket req s = flLock (flErase req (flUnlock s)) := by
  rw [eraseBracket, eraseStep, if_pos ⟨h0, he⟩]

/-- An erase call that answers `ok` erases every byte of a named page (R67). -/
theorem flErase_read_named {req : EraseReq} {s : State} {p a : Nat} (h0 : s.answerAt 0 = .ok)
    (hp : req.names s.cfg p) (ha : inPage s.cfg p a) :
    (flErase req s).mem.read a = some s.cfg.erasedByte := by
  rw [flErase_mem, Memory.read_fillClipped, if_pos ((req.named_iff s.cfg a).mp ⟨p, hp, ha⟩), h0]

/-- Whatever an erase call answers, a byte of no named page stays (R67). -/
theorem flErase_read_unnamed {req : EraseReq} {s : State} {a : Nat}
    (h : ∀ p, req.names s.cfg p → ¬ inPage s.cfg p a) :
    (flErase req s).mem.read a = s.mem.read a := by
  rw [flErase_mem, Memory.read_fillClipped, if_neg]
  intro hr
  obtain ⟨p, hp, ha⟩ := (req.named_iff s.cfg a).mpr hr
  exact h p hp ha

/-- Settles O30: memory at the end is that after the one erase call. -/
theorem eraseActsOnNamedPagesOnly : Obligations.EraseActsOnNamedPagesOnly := by
  intro s t pidx pcnt x hc hi h0 ht
  rw [exec_eraseFlash (eraseAllowed_of_le hc (hi.imp_right And.left)),
    eraseBracket_unlocked h0 (eraseRequest_nonempty hi)] at ht
  cases ht
  constructor
  · intro h1 p a hp ha
    exact flErase_read_named (s := flUnlock s) ((flUnlock_answerAt s 0).trans h1) hp ha
  · intro a ha
    exact flErase_read_unnamed (s := flUnlock s) ha

/-! ### The write bracket -/

/-- MEMORY_WRITE to a valid address runs its bracket and replies with its status (R211). -/
theorem exec_memoryWrite {addr : W32} {s : State} (h : isValid s.cfg addr = true) (d x : List Byte) :
    exec (.memoryWrite addr d x) s =
      .next (beginCycle (send [0xCD, 0x01, (writeBracket addr d s).writeStatus]
        (writeBracket addr d s))) := by
  rw [exec, execMemoryWrite, if_pos h]; rfl

/-- What MEMORY_WRITE leaves alone when its calls between unlock and lock, `n` in number, have led to `v` (R211). -/
theorem LoopFrame.flashFrame {n : Nat} {s v : State} (h : LoopFrame (flUnlock s) v)
    (ha : v.answers = (flUnlock s).answers.drop n) (hc : v.calls = (flUnlock s).calls + n)
    (bs : List Byte) : FlashFrame (n + 2) s (beginCycle (send bs (flLock v))) where
  begun := ⟨rfl, rfl, congrArg (fun c : Cfg => List.replicate c.bufCap 0) h.cfg⟩
  used := ⟨h.rxIn, by simp [ha], by simp [hc]; omega⟩
  cfg := h.cfg
  handedOff := h.handedOff
  p := h.p
  r := h.r
  crcAcc := h.crcAcc
  obLocked := h.obLocked
  rop := h.rop

/-- A lock that answers `ok` locks (R33, R44). -/
theorem flLock_flLocked_of_ok {s : State} (h : s.answerAt 0 = .ok) : (flLock s).flLocked = true := by
  rw [flLock_flLocked, h]

/-- With the unlock's answer `ok` the bracket is unlock, program loop and lock (R211, R215). -/
theorem writeBracket_unlocked {s : State} (h0 : s.answerAt 0 = .ok) (addr : W32) (d : List Byte) :
    writeBracket addr d s = flLock (programLoop addr d (beginLoop (flUnlock s))) := by
  rw [writeBracket, writeStep, flUnlock_u, if_pos h0]

/-- How an unlocked MEMORY_WRITE ends when its program loop has made `n` calls and led to `v`: the lock, the reply,
and all else as the loop left it (R211, R215). -/
theorem exec_memoryWrite_unlocked {n : Nat} {addr : W32} {d : List Byte} {s v : State}
    (hv : isValid s.cfg addr = true) (h0 : s.answerAt 0 = .ok)
    (hloop : programLoop addr d (beginLoop (flUnlock s)) = v)
    (ha : v.answers = (flUnlock s).answers.drop n) (hc : v.calls = (flUnlock s).calls + n) (x : List Byte) :
    ∃ t, exec (.memoryWrite addr d x) s = .next t ∧
      Added v t [.flLock (s.answerAt (n + 1)),
        .tx [0xCD, 0x01, if v.w = .ok ∧ s.answerAt (n + 1) = .ok then 0x01 else 0x00]] ∧
      FlashFrame (n + 2) s t ∧ t.e = s.e ∧ t.u = .ok ∧ t.w = v.w ∧ t.wi = v.wi ∧ t.mem = v.mem ∧
      t.l = s.answerAt (n + 1) ∧ (s.answerAt (n + 1) = .ok → t.flLocked = true) := by
  have hf : LoopFrame (flUnlock s) v :=
    hloop ▸ (beginLoop_frame _).trans (programLoop_frame addr d _)
  have hl : v.answerAt 0 = s.answerAt (n + 1) := (answerAt_of_used ha hc 0).trans (by simp)
  rw [exec_memoryWrite hv, writeBracket_unlocked h0, hloop]
  refine ⟨_, rfl, ?_, hf.flashFrame ha hc _, hf.e, hf.u.trans h0, rfl, rfl, rfl, hl,
    fun h => flLock_flLocked_of_ok (hl.trans h)⟩
  simp [hl, h0, State.writeStatus, hf.u, writeOk, writeFail]

/-- Settles O32: between unlock and lock runs the loop with every call answering `ok` (`programLoop_all_ok`). -/
theorem writeProgramsEveryByteInOrder : Obligations.WriteProgramsEveryByteInOrder := by
  intro s addr d x hd hv ha
  have h0 := ha 0 (Nat.zero_le _)
  obtain ⟨hw, hwi, hans, hcalls, hev, hin, hout⟩ :=
    programLoop_all_ok addr d (beginLoop (flUnlock s)) rfl (by simpa using hd)
      (fun k hk => by simpa using ha (k + 1) hk)
  obtain ⟨t, ht, htev, hframe, hte, htu, htw, htwi, htmem, htl, htlock⟩ :=
    exec_memoryWrite_unlocked hv h0 rfl hans hcalls x
  simp only [beginLoop_wi, Nat.zero_add] at hwi hev hin hout
  refine ⟨t, ht, ?_, hframe, hte, htu, htw.trans hw, htwi.trans hwi, htl, htlock, htmem ▸ hin,
    htmem ▸ hout⟩
  simp [htev, hev, h0, hw]

/-- Settles O33: between unlock and lock runs the loop up to its first failure (`programLoop_first_fail`). -/
theorem writeStopsAtTheFirstFailure : Obligations.WriteStopsAtTheFirstFailure := by
  intro s addr d x j hd hv hj ha hfail
  have h0 := ha 0 (Nat.zero_le _)
  obtain ⟨hw, hwi, hans, hcalls, hev, hin, hout⟩ :=
    programLoop_first_fail addr d (beginLoop (flUnlock s)) j rfl (by simpa using hd) hj
      (fun k hk => by simpa using ha (k + 1) hk) (by simpa using hfail)
  obtain ⟨t, ht, htev, hframe, hte, htu, htw, htwi, htmem, htl, htlock⟩ :=
    exec_memoryWrite_unlocked hv h0 rfl hans hcalls x
  simp only [beginLoop_wi, Nat.zero_add] at hwi hev hin hout
  refine ⟨t, ht, ?_, hframe, hte, htu, htw.trans hw, htwi.trans hwi, htl, htlock, htmem ▸ hin,
    htmem ▸ hout⟩
  simp [htev, hev, h0, hw]

/-! ### The protection-level bracket -/

/-- A request for level 0 or 1 names that level and its encoding (R231, R232). -/
theorem requestedLevel_of_settable {lvl : Byte} (h : lvl = 0 ∨ lvl = 1) :
    ∃ k, requestedLevel lvl = some k ∧ k.toLevel = (if lvl = 0 then .level0 else .level1) ∧
      ∀ c, ropEnc c k = if lvl = 0 then c.ropEnc0 else c.ropEnc1 := by
  obtain rfl | rfl := h
  · exact ⟨.level0, rfl, rfl, fun _ => rfl⟩
  · exact ⟨.level1, rfl, rfl, fun _ => rfl⟩

/-- A request for a level that may be asked for runs its bracket and replies with its status (R231). -/
theorem exec_disableRwProtect {lvl : Byte} {k : SetLevel} (h : requestedLevel lvl = some k) (x : List Byte)
    (s : State) :
    exec (.disableRwProtect lvl x) s =
      .next (beginCycle (send [0xCD, 0x01, (ropBracket k s).ropStatus] (ropBracket k s))) := by
  rw [exec, execDisableRwProtect, h]; rfl

/-- A lock that answers `ok` locks (R33, R50). -/
theorem obLock_obLocked_of_ok {s : State} (h : s.answerAt 0 = .ok) : (obLock s).obLocked = true := by
  rw [obLock_obLocked, h]

/-- What a run of option-byte operations leaves alone after `n` driver calls (R231). -/
structure OptionRun (n : Nat) (s t : State) : Prop extends UsedAnswers n s t where
  cfg : t.cfg = s.cfg
  handedOff : t.handedOff = s.handedOff
  wi : t.wi = s.wi
  e : t.e = s.e
  w : t.w = s.w
  crcAcc : t.crcAcc = s.crcAcc
  flLocked : t.flLocked = s.flLocked
  mem : t.mem = s.mem

theorem OptionRun.trans {m n : Nat} {s t v : State} (h : OptionRun m s t) (g : OptionRun n t v) :
    OptionRun (m + n) s v where
  rxIn := g.rxIn.trans h.rxIn
  answers := by rw [g.answers, h.answers, List.drop_drop]
  calls := by rw [g.calls, h.calls, Nat.add_assoc]
  cfg := g.cfg.trans h.cfg
  handedOff := g.handedOff.trans h.handedOff
  wi := g.wi.trans h.wi
  e := g.e.trans h.e
  w := g.w.trans h.w
  crcAcc := g.crcAcc.trans h.crcAcc
  flLocked := g.flLocked.trans h.flLocked
  mem := g.mem.trans h.mem

/-- After the reply the next cycle begins, and what was left alone still is. -/
theorem OptionRun.optionFrame {n : Nat} {s t : State} (h : OptionRun n s t) (bs : List Byte) :
    OptionFrame n s (beginCycle (send bs t)) where
  begun := ⟨rfl, rfl, congrArg (fun c : Cfg => List.replicate c.bufCap 0) h.cfg⟩
  used := ⟨h.rxIn, h.answers, h.calls⟩
  cfg := h.cfg
  handedOff := h.handedOff
  wi := h.wi
  e := h.e
  w := h.w
  crcAcc := h.crcAcc
  flLocked := h.flLocked
  mem a := congrArg (Memory.read · a) h.mem

theorem obUnlock_option (s : State) : OptionRun 1 s (obUnlock s) :=
  ⟨⟨rfl, by simp, rfl⟩, rfl, rfl, rfl, rfl, rfl, rfl, rfl, rfl⟩

theorem obProg_option (k : SetLevel) (s : State) : OptionRun 1 s (obProg k s) :=
  ⟨⟨rfl, by simp, rfl⟩, rfl, rfl, rfl, rfl, rfl, rfl, rfl, rfl⟩

theorem obReload_option (k : SetLevel) (s : State) : OptionRun 1 s (obReload k s) :=
  ⟨⟨rfl, by simp, rfl⟩, rfl, rfl, rfl, rfl, rfl, rfl, rfl, rfl⟩

theorem obLock_option (s : State) : OptionRun 1 s (obLock s) :=
  ⟨⟨rfl, by simp, rfl⟩, rfl, rfl, rfl, rfl, rfl, rfl, rfl, rfl⟩

theorem skipProgram_option (s : State) : OptionRun 0 s (skipProgram s) :=
  ⟨⟨rfl, rfl, rfl⟩, rfl, rfl, rfl, rfl, rfl, rfl, rfl, rfl⟩

theorem skipReload_option (s : State) : OptionRun 0 s (skipReload s) :=
  ⟨⟨rfl, rfl, rfl⟩, rfl, rfl, rfl, rfl, rfl, rfl, rfl, rfl⟩

/-- Settles O36: no call before the lock fails, so the bracket makes all four (`ropBracket_cases`). -/
theorem levelChangeTakesEffect : Obligations.LevelChangeTakesEffect := by
  intro s lvl x hl h0 h1 h2
  obtain ⟨k, hk, hlevel, henc⟩ := requestedLevel_of_settable hl
  obtain ⟨h, -⟩ | ⟨-, h, -⟩ | ⟨-, -, e⟩ := ropBracket_cases k s
  · simp [h0] at h
  · simp [h1] at h
  · rw [exec_disableRwProtect hk, e, ← hlevel, ← henc]
    have hrun := ((obUnlock_option s).trans (obProg_option k _)).trans (obReload_option k _)
    refine ⟨_, rfl, ?_, by simp [h2], (hrun.trans (obLock_option _)).optionFrame _, by simp [h0],
      by simp [h1], by simp [h2], by simp, fun h3 => obLock_obLocked_of_ok (by simpa using h3)⟩
    simp [h0, h1, h2, State.ropStatus, ropChangeValid, ropChangeInvalid]

/-- Settles O37: which step fails first decides which calls the bracket makes (`ropBracket_cases`); the level after
them is by `ropBracket_rop`. -/
theorem failedLevelChangeSkipsAndLocks : Obligations.FailedLevelChangeSkipsAndLocks := by
  intro s lvl x hl hfail
  obtain ⟨k, hk, hlevel, henc⟩ := requestedLevel_of_settable hl
  have hrop := ropBracket_rop k s
  rw [exec_disableRwProtect hk, ← hlevel, ← henc]
  refine ⟨_, rfl, ?_⟩
  obtain ⟨h0, e⟩ | ⟨h0, h1, e⟩ | ⟨h0, h1, e⟩ := ropBracket_cases k s <;> rw [e] at hrop ⊢
  · have hrun := ((obUnlock_option s).trans (skipProgram_option _)).trans (skipReload_option _)
    rw [if_pos h0]
    refine ⟨?_, by simp, (hrun.trans (obLock_option _)).optionFrame _, by simp [h0], by simp, by simp,
      by simp, fun h => obLock_obLocked_of_ok (by simpa using h)⟩
    simp [h0, State.ropStatus, ropChangeInvalid]
  · have hrun := ((obUnlock_option s).trans (obProg_option k _)).trans (skipReload_option _)
    rw [if_neg (by simp [h0]), if_pos h1]
    refine ⟨?_, hrop, (hrun.trans (obLock_option _)).optionFrame _, by simp [h0], by simp [h1], by simp,
      by simp, fun h => obLock_obLocked_of_ok (by simpa using h)⟩
    simp [h0, h1, State.ropStatus, ropChangeInvalid]
  · have hrun := ((obUnlock_option s).trans (obProg_option k _)).trans (obReload_option k _)
    have h2 : s.answerAt 2 = .fail := by simpa [h0, h1] using hfail
    rw [if_neg (by simp [h0]), if_neg (by simp [h1])]
    refine ⟨?_, hrop, (hrun.trans (obLock_option _)).optionFrame _, by simp [h0], by simp [h1],
      by simp [h2], by simp, fun h => obLock_obLocked_of_ok (by simpa using h)⟩
    simp [h0, h1, h2, State.ropStatus, ropChangeInvalid]

end Sys2Proof.Machine
end

section
/-! PROOFS. The family of 30_encoding.md, first part: the decoder and the encoder are inverse to each other (R90 to
R102, R115), on the fields of a frame and on its bytes. -/

namespace Sys2Proof

/-! ### Code and payload (R96 to R102) -/

/-- MEMORY_WRITE's data is no longer than its length byte `L` can say (R97). -/
def Instr.dataFits : Instr → Prop
  | .memoryWrite _ d _ => d.length ≤ 255
  | _ => True

theorem Instr.dataFits_of_lengthByteFits {i : Instr} (h : i.lengthByteFits = true) : i.dataFits := by
  cases i with
  | memoryWrite a d x =>
    have hfits : 5 + d.length + x.length + 5 ≤ 255 := of_decide_eq_true h
    have hd : d.length ≤ 255 := by omega
    exact hd
  | _ => trivial

/-- The length byte says the data's length (R97). -/
theorem Instr.dataFits.mod_eq {a : W32} {d x : List Byte} (h : (memoryWrite a d x).dataFits) :
    d.length % 256 = d.length :=
  Nat.mod_eq_of_lt (Nat.lt_succ_of_le h)

/-- The decoder gives back the command whose code and payload it is given. -/
theorem decodeFields_code_payload {i : Instr} (h : i.dataFits) : decodeFields i.code i.payload = .instr i := by
  cases i with
  | memoryWrite a d x => simp [Instr.code, Instr.payload, le32Bytes, le32Of_le32Bytes, h.mod_eq]
  | _ => simp [Instr.code, Instr.payload, le32Bytes, le32Of_le32Bytes]

/-- A code outside the twelve is rejected, whatever its payload (R103). -/
theorem decodeFields_unknown {code : Byte} (hc : code ∉ cmdSet) (pl : List Byte) :
    decodeFields code pl = .rejected (.unknownCode code) := by
  have hcode : code = BitVec.ofNat 8 code.toNat := by simp
  unfold decodeFields
  split
  case h_13 => rfl
  all_goals
    rename_i hn
    exact absurd (by rw [hcode, hn]; decide) hc

/-- The twelve codes: eight whose payload may be empty, and the four with operands (R100, R101). -/
theorem mem_cmdSet_iff {code : Byte} : code ∈ cmdSet ↔
    code ∈ ([0x10, 0x11, 0x12, 0x13, 0x17, 0x18, 0x19, 0x20] : List Byte) ∨
      code = 0x14 ∨ code = 0x15 ∨ code = 0x16 ∨ code = 0x21 := by
  simp only [cmdSet, List.mem_cons, List.not_mem_nil, or_false]
  tauto

/-- The decoder loses nothing of a code and a payload it accepts (R102). -/
theorem code_payload_of_decodeFields {code : Byte} {pl : List Byte} {i : Instr}
    (h : decodeFields code pl = .instr i) : i.code = code ∧ i.payload = pl ∧ i.dataFits := by
  by_cases hc : code ∈ cmdSet
  · obtain hc | rfl | rfl | rfl | rfl := mem_cmdSet_iff.mp hc
    · simp only [List.mem_cons, List.not_mem_nil, or_false] at hc
      rcases hc with rfl | rfl | rfl | rfl | rfl | rfl | rfl | rfl <;> cases h <;>
        exact ⟨rfl, rfl, trivial⟩
    · match pl, h with
      | a0 :: a1 :: a2 :: a3 :: x, h =>
        cases h
        exact ⟨rfl, by simp [Instr.payload, le32Bytes_le32Of], trivial⟩
    · match pl, h with
      | p :: c :: x, h => cases h; exact ⟨rfl, rfl, trivial⟩
    · match pl, h with
      | a0 :: a1 :: a2 :: a3 :: len :: rest, h =>
        replace h := (decodeFields_memoryWrite a0 a1 a2 a3 len rest).symm.trans h
        split at h
        · cases h
        · cases h
          have hlen := len.isLt
          have hm : min len.toNat rest.length = len.toNat := by omega
          exact ⟨rfl, by simp [Instr.payload, le32Bytes_le32Of, hm], by simp [Instr.dataFits]; omega⟩
    · match pl, h with
      | l :: x, h => cases h; exact ⟨rfl, rfl, trivial⟩
  · simp [decodeFields_unknown hc] at h

/-! ### Frames (R90, R94, R115) -/

/-- The bytes a frame was read from: its length byte, its code, its payload, and at least a CRC field. -/
theorem bytes_of_readFrame {bs : List Byte} {f : Frame} (h : readFrame bs = .ok f) :
    ∃ tail, bs = f.n :: f.code :: (f.payload ++ tail) ∧ f.n.toNat = f.payload.length + 5 ∧
      4 ≤ tail.length := by
  match bs, h with
  | n :: body, h =>
    simp only [readFrame] at h
    split at h
    · cases h
    · split at h
      · cases h
      · rename_i h5 hn
        cases h
        match body, hn with
        | [], hn => exact absurd (Nat.le_of_not_lt hn) (by simp; omega)
        | c :: pl, hn =>
          rw [List.length_cons] at hn
          exact ⟨pl.drop (n.toNat - 5), by simp, by simp; omega, by simp; omega⟩

/-- The bytes a command was decoded from: the command's covered region, and at least a CRC field. -/
theorem bytes_of_decode {bs : List Byte} {i : Instr} (h : decode bs = .instr i) :
    ∃ n tail, bs = n :: i.code :: (i.payload ++ tail) ∧ n.toNat = i.payload.length + 5 ∧
      4 ≤ tail.length := by
  unfold decode at h
  split at h
  · cases h
  · rename_i f hf
    obtain ⟨tail, hbs, hn, ht⟩ := bytes_of_readFrame hf
    obtain ⟨hc, hp, -⟩ := code_payload_of_decodeFields h
    exact ⟨f.n, tail, by rw [hbs, hc, hp], by rw [hn, hp], ht⟩

/-- Decoding undoes encoding under any checksum function, and does not read past the frame (R95, R115). -/
theorem decode_encode {i : Instr} (h : i.lengthByteFits = true) (crc : List Byte → W32) (rest : List Byte) :
    decode (encode crc i ++ rest) = .instr i := by
  have hlen : i.payload.length + 5 ≤ 255 := by
    simpa [Instr.lengthByteFits, Instr.payload_length] using h
  rw [decode, encode, readFrame_frameBytes crc i.code i.payload rest hlen]
  exact decodeFields_code_payload (Instr.dataFits_of_lengthByteFits h)

theorem Instr.lengthByteFits_of_wf {cap : Nat} {i : Instr} (h : i.wf cap = true) : i.lengthByteFits = true :=
  (Bool.and_eq_true_iff.mp h).1

/-- Settles O2, by `decode_encode`: the buffer's capacity plays no part. -/
theorem decodeOfEncodeIsTheCommand : Obligations.DecodeOfEncodeIsTheCommand :=
  fun crc _ _ rest h => decode_encode (Instr.lengthByteFits_of_wf h) crc rest

/-- Settles O3: the bytes begin with the command's covered region (`bytes_of_decode`), which ends 4 bytes before
the end of the frame. -/
theorem encodeOfDecodeIsTheCoveredRegion : Obligations.EncodeOfDecodeIsTheCoveredRegion := by
  intro bs i h
  obtain ⟨n, tail, rfl, hn, ht⟩ := bytes_of_decode h
  have hlt := n.isLt
  have hbyte : BitVec.ofNat 8 (1 + i.payload.length + 4) = n := by
    rw [show 1 + i.payload.length + 4 = n.toNat by omega, BitVec.ofNat_toNat, BitVec.setWidth_eq]
  refine ⟨?_, by simp; omega, ?_⟩
  · rw [Instr.lengthByteFits, decide_eq_true_eq, ← Instr.payload_length]
    omega
  · simp [coveredBytes, hbyte, hn]

/-- Settles O4: an accepted payload is some command's own (`code_payload_of_decodeFields`), and a payload of a
listed shape is accepted (`decodeFields_of_shape`). -/
theorem decodesExactlyTheListedShapes : Obligations.DecodesExactlyTheListedShapes := by
  intro code pl
  constructor
  · rintro ⟨i, h⟩
    obtain ⟨rfl, rfl, hd⟩ := code_payload_of_decodeFields h
    cases i with
    | memoryWrite a d x =>
      simp [Instr.code, Instr.payload, le32Bytes, hd.mod_eq]
      omega
    | _ => simp [Instr.code, Instr.payload]
  · intro h
    have hcode : code ∈ cmdSet := mem_cmdSet_iff.mpr (by tauto)
    refine Machine.decodeFields_of_shape hcode ?_
    obtain h | ⟨rfl, h⟩ | ⟨rfl, h⟩ | ⟨rfl, h⟩ | ⟨rfl, h⟩ := h
    · simp only [List.mem_cons, List.not_mem_nil, or_false] at h
      rcases h with rfl | rfl | rfl | rfl | rfl | rfl | rfl | rfl <;> simp [payloadShapeOk, need]
    all_goals simpa [payloadShapeOk, need] using h

/-- Settles O1: seven closed frames, each evaluated. -/
theorem writtenFramesDecode : Obligations.WrittenFramesDecode := by
  refine ⟨?_, ?_, ?_, ?_, ?_, ?_, ?_⟩ <;> decide

end Sys2Proof
end

section
/-! PROOFS. The family of 30_encoding.md, second part: the command in the frame buffer (R22, R132) and the checksum
that lets it through (R94, R126). -/

namespace Sys2Proof.Machine

/-- The payload of the command in the buffer is the `P` bytes from `FB[2]` on (R22, R93). -/
theorem payload_of_fetch {s : State} {i : Instr} (hf : s.holdsFrame) (hl : s.fb.length = s.cfg.bufCap)
    (h : s.fetch = .instr i) :
    i.dataFits ∧ i.payload.length = s.payloadLen ∧
      ∀ k, k < s.payloadLen → s.fbAt (2 + k) = i.payload.getD k 0 := by
  rw [fetch_eq_decodeFields hf hl] at h
  obtain ⟨-, hp, hd⟩ := code_payload_of_decodeFields h
  obtain ⟨h5, hcap⟩ := hf
  rw [hp]
  refine ⟨hd, by simp [State.payload, State.payloadLen]; omega, fun k hk => ?_⟩
  simp [State.payload, State.fbAt, List.getElem?_take_of_lt hk]

/-- An address at the head of the payload is the word the buffer's bytes 2 to 5 assemble to (R96, R97). -/
theorem eq_addrView {s : State} {a : W32} {x : List Byte} (hP : 4 ≤ s.payloadLen)
    (hat : ∀ k, k < s.payloadLen → s.fbAt (2 + k) = (le32Bytes a ++ x).getD k 0) : a = s.addrView := by
  rw [State.addrView, hat 0 (by omega), hat 1 (by omega), hat 2 (by omega), hat 3 (by omega)]
  exact (le32Of_le32Bytes a).symm

/-- Settles O5: each operand is read off the command's own payload, whose bytes are the buffer's
(`payload_of_fetch`). -/
theorem operandsAreTheNamedBytes : Obligations.OperandsAreTheNamedBytes := by
  intro s i hf hl h
  obtain ⟨hd, hlen, hat⟩ := payload_of_fetch hf hl h
  rw [Instr.payload_length] at hlen
  cases i with
  | jumpToAddress a x =>
    have hP : 4 ≤ s.payloadLen := hlen ▸ Nat.le_add_right 4 _
    exact ⟨hP, eq_addrView hP hat⟩
  | eraseFlash p c x =>
    have hP : 2 ≤ s.payloadLen := hlen ▸ Nat.le_add_right 2 _
    exact ⟨hP, (hat 0 (by omega)).symm, (hat 1 (by omega)).symm⟩
  | memoryWrite a d x =>
    have hP : 5 + d.length ≤ s.payloadLen := hlen ▸ Nat.le_add_right _ _
    simp only [Instr.payload, List.append_assoc] at hat
    refine ⟨hP, eq_addrView (by omega) hat, ?_, fun k hk => ?_⟩
    · rw [hat 4 (by omega)]
      exact hd.mod_eq.symm
    · rw [show 7 + k = 2 + (5 + k) by omega, hat (5 + k) (by omega)]
      simp [le32Bytes, Nat.add_comm 5 k, List.getElem?_append_left hk]
  | disableRwProtect l x =>
    have hP : 1 ≤ s.payloadLen := hlen ▸ Nat.le_add_right 1 _
    exact ⟨hP, (hat 0 (by omega)).symm⟩
  | _ => trivial

/-- A frame at the start of the buffer is what the fetch reads, whatever is behind it (R90, R105). -/
theorem fetch_of_encode {s : State} {i : Instr} {crc : List Byte → W32} {rest : List Byte}
    (hw : i.lengthByteFits = true) (hfb : s.fb = encode crc i ++ rest) : s.fetch = .instr i := by
  obtain ⟨hlen, -, -⟩ := Laws.FrameShape.of_any i crc hw
  have hN : s.lenLatch + 1 = (encode crc i).length := by
    rw [hlen, State.lenLatch, State.fbAt, hfb, List.getD_append _ _ _ _ (by omega)]
  have hframe : s.frame = encode crc i ++ [] := by simp [State.frame, hN, hfb]
  rw [State.fetch, hframe, decode_encode hw]

/-- Settles O7, by `fetch_of_encode`. -/
theorem stepRunsTheEncodedCommand : Obligations.StepRunsTheEncodedCommand :=
  fun _ _ _ _ hp hw hfb => step_exec hp (fetch_of_encode (Instr.lengthByteFits_of_wf hw) hfb)

/-- Settles O11: with a whole frame in the buffer the verifier has two ways to go (`verifyStep_cases`), and
`crcMatches_iff` says which. -/
theorem checksumDecidesTheGate : Obligations.ChecksumDecidesTheGate := by
  intro s hf hp
  rw [step_verify hp]
  obtain ⟨hbad, -⟩ | ⟨-, ⟨hm, e⟩ | ⟨hm, e⟩⟩ := verifyStep_cases s
  · obtain ⟨h5, hcap⟩ := hf
    omega
  · refine ⟨_, e, ⟨rfl, rfl, rfl, fun _ => rfl⟩, ⟨rfl, rfl, rfl⟩, rfl, rfl, rfl, rfl, rfl, rfl, rfl, rfl, rfl, ?_⟩
    rw [if_pos ((crcMatches_iff s).mp hm)]
    exact ⟨rfl, rfl, hm, rfl⟩
  · refine ⟨_, e, ⟨rfl, rfl, rfl, fun _ => rfl⟩, ⟨rfl, rfl, rfl⟩, rfl, rfl, rfl, rfl, rfl, rfl, rfl, rfl, rfl, ?_⟩
    rw [if_neg (fun h => by simp [(crcMatches_iff s).mpr h] at hm)]
    exact ⟨by simp [State.covered], rfl, rfl, rfl⟩

end Sys2Proof.Machine
end

section
/-! PROOFS. The family of 40_frame_pipeline.md, first part: one step of the frame reader and of the dispatcher (R121
to R125, R130, R131). -/

namespace Sys2Proof.Machine

/-! ### The steps of the front end as equations -/

section
variable {s : State}

/-- A timeout on the length byte (R121). -/
theorem step_lenTimeout (hp : s.phase = .awaitLen) (hr : s.rxAnswer 1 = .timeout) :
    step s = .next (beginCycle (recv 1 s)) := by
  rw [step_awaitLen hp, awaitLenStep, hr]
  rfl

/-- A length byte arrives: it draws a NACK or is latched (R121, R122, R124). -/
theorem step_lenByte {b : Byte} (hp : s.phase = .awaitLen) (hfb : 0 < s.fb.length)
    (hr : s.rxAnswer 1 = .bytes [b]) :
    step s = .next (
      if s.cfg.bufCap < b.toNat + 1 ∨ b = 0 then beginCycle (send [0xAB] (storeFb 0 [b] (recv 1 s)))
      else setPhase .awaitBody (storeFb 0 [b] (recv 1 s))) := by
  have hN : (storeFb 0 [b] (recv 1 s)).lenLatch = b.toNat := storeFb_zero_lenLatch hfb
  have h0 : b.toNat = 0 ↔ b = 0 := by simp [← BitVec.toNat_inj]
  simp only [step_awaitLen hp, awaitLenStep, hr, hN, h0, raise_oversize, raise_shortFrame]
  by_cases hcap : s.cfg.bufCap < b.toNat + 1
  · rw [if_pos hcap, if_pos (.inl hcap)]
  · rw [if_neg hcap]
    simp only [hcap, false_or]

/-- A timeout on the body (R123). -/
theorem step_bodyTimeout (hp : s.phase = .awaitBody) (h1 : 1 ≤ s.lenLatch)
    (hcap : s.lenLatch + 1 ≤ s.cfg.bufCap) (hr : s.rxAnswer s.lenLatch = .timeout) :
    step s = .next (beginCycle (recv s.lenLatch s)) := by
  rw [step_awaitBody hp, awaitBodyStep, if_neg (by omega), hr]
  rfl

/-- A body arrives: it is too short for a frame or goes to the verifier (R123, R124, R125). -/
theorem step_body {bs : List Byte} (hp : s.phase = .awaitBody) (h1 : 1 ≤ s.lenLatch)
    (hcap : s.lenLatch + 1 ≤ s.cfg.bufCap) (hr : s.rxAnswer s.lenLatch = .bytes bs) :
    step s = .next (
      if s.lenLatch < 5 then beginCycle (send [0xAB] (storeFb 1 bs (recv s.lenLatch s)))
      else setPhase .verify (storeFb 1 bs (recv s.lenLatch s))) := by
  rw [step_awaitBody hp, awaitBodyStep, if_neg (by omega), hr]
  rfl

/-- The checksum decides (R126, R128). -/
theorem step_checksum (hp : s.phase = .verify) (hf : s.holdsFrame) :
    step s = .next (
      if s.crcMatches then setPhase .dispatch (checkCrc s) else beginCycle (send [0xAB] (checkCrc s))) := by
  obtain ⟨h5, hcap⟩ := hf
  rw [step_verify hp, verifyStep, if_neg (by omega)]
  rfl

/-- The lookup and the payload shape decide (R130, R131). -/
theorem step_lookup (hp : s.phase = .dispatch) (hf : s.holdsFrame) (hc : s.crcPass = true) :
    step s = .next (
      if s.code ∉ cmdSet then beginCycle s
      else if payloadShapeOk s.code s.payload = false then beginCycle (send [0xAB] s)
      else setPhase .exec s) := by
  obtain ⟨h5, hcap⟩ := hf
  rw [step_dispatch hp, dispatchStep, if_neg (by simp [hc]; omega)]
  rfl

end

/-! ### What the reader and the dispatcher leave alone -/

/-- Of the front end only the verifier writes a register outside the frame cycle, the CRC accumulator (R127). -/
theorem step_sameRegisters {s t : State} (hp : s.phase = .awaitLen ∨ s.phase = .awaitBody ∨ s.phase = .dispatch)
    (h : step s = .next t) : SameRegisters s t := by
  obtain hp | hp | hp := hp
  · rw [step_awaitLen hp] at h
    obtain ⟨-, e⟩ | ⟨b, -, ⟨-, e⟩ | ⟨-, -, e⟩ | ⟨-, -, e⟩⟩ := awaitLenStep_cases s <;> rw [e] at h <;>
      cases h <;> constructor <;> rfl
  · rw [step_awaitBody hp] at h
    obtain ⟨-, e⟩ | ⟨-, -, ⟨-, e⟩ | ⟨bs, -, -, ⟨-, e⟩ | ⟨-, e⟩⟩⟩ := awaitBodyStep_cases s <;> rw [e] at h <;>
      cases h <;> constructor <;> rfl
  · rw [step_dispatch hp] at h
    obtain ⟨-, e⟩ | ⟨-, -, ⟨-, e⟩ | ⟨-, -, e⟩ | ⟨-, -, e⟩⟩ := dispatchStep_cases s <;> rw [e] at h <;>
      cases h <;> constructor <;> rfl

/-- A step before a handler runs is of the front end. -/
theorem step_front {s t : State} (hp : s.phase ≠ .exec) (h : step s = .next t) : FrontRun s t := by
  obtain ⟨-, hf⟩ | ⟨he, -⟩ := step_front_or_exec h
  · exact hf
  · exact absurd he hp

/-! ### The frame buffer's size (R7, R20) -/

theorem Inv.bufCap_bounds {s : State} (hi : Inv s) : 6 ≤ s.cfg.bufCap ∧ s.cfg.bufCap ≤ 256 := by
  have hc := hi.cfgOk
  simp only [Cfg.wf, Cfg.bufCapOk, Bool.and_eq_true, decide_eq_true_eq] at hc
  tauto

theorem Inv.fb_pos {s : State} (hi : Inv s) : 0 < s.fb.length := by
  rw [hi.fbLength]
  exact Nat.lt_of_lt_of_le (by decide) hi.bufCap_bounds.1

/-! ### The obligations about one step -/

/-- Settles O8: the buffer and `crc_pass` already are what the next cycle starts with. -/
theorem lengthByteTimeoutIsSilent : Obligations.LengthByteTimeoutIsSilent := by
  intro s hi hp hr
  have h := step_lenTimeout hp hr
  have hf := step_front (by simp [hp]) h
  have hk := hi.phaseIs
  simp only [State.phaseOk, hp] at hk
  obtain ⟨hfb, hpass⟩ := hk
  exact ⟨_, h, by simp [hr], ⟨rfl, rfl, rfl⟩, step_sameRegisters (.inl hp) h, hf.toSameDevice, hfb.symm,
    hpass.symm, hf.answers, hf.calls⟩

/-- Settles O9, by `step_lenByte`; what is stored in the buffer's first byte is read back. -/
theorem lengthByteDecidesTheBody : Obligations.LengthByteDecidesTheBody := by
  intro s b hi hp hr
  have h := step_lenByte hp hi.fb_pos hr
  have hregs := step_sameRegisters (.inl hp) h
  have hf := step_front (by simp [hp]) h
  refine ⟨_, h, hregs, hf.toSameDevice, hf.answers, hf.calls, ?_, ?_⟩
  · split <;> exact (rxAnswer_bytes hr).2
  · split
    · exact ⟨by simp [hr], rfl, rfl, rfl⟩
    · have hb : (storeFb 0 [b] (recv 1 s)).fbAt 0 = b := by
        rw [storeFb_fbAt 0 [b] (recv 1 s) hi.fb_pos]
        rfl
      exact ⟨by simp [hr], rfl, hb, congrArg (fun x : Byte => some x.toNat) hb⟩

/-- Settles O10, by `step_bodyTimeout` and `step_body`; the stored body is read back (`storeFb_fbAt`). -/
theorem bodyIsStoredOrDiscarded : Obligations.BodyIsStoredOrDiscarded := by
  intro s hi hp
  have hk := hi.phaseIs
  simp only [State.phaseOk, hp] at hk
  obtain ⟨h1, hcap, -⟩ := hk
  cases hr : s.rxAnswer s.lenLatch with
  | timeout =>
    have h := step_bodyTimeout hp h1 hcap hr
    have hf := step_front (by simp [hp]) h
    exact ⟨_, h, step_sameRegisters (.inr (.inl hp)) h, hf.toSameDevice, hf.answers, hf.calls, by simp [hr],
      rfl, rfl, rfl⟩
  | bytes bs =>
    have h := step_body hp h1 hcap hr
    have hf := step_front (by simp [hp]) h
    obtain ⟨hlen, hrx⟩ := rxAnswer_bytes hr
    refine ⟨_, h, step_sameRegisters (.inr (.inl hp)) h, hf.toSameDevice, hf.answers, hf.calls, hlen, ?_, ?_⟩
    · split <;> exact hrx
    · split
      · exact ⟨by simp [hr], rfl, rfl, rfl⟩
      · have hat := storeFb_fbAt 1 bs (recv s.lenLatch s) (by rw [recv_fb, hi.fbLength]; omega)
        refine ⟨by simp [hr], rfl, hat 0, fun k hk => (hat (1 + k)).trans ?_⟩
        rw [if_pos (by omega), Nat.add_sub_cancel_left]

/-- Settles O12: the branches of `step_lookup` are the statement's. -/
theorem dispatcherLooksUpAndChecksShape : Obligations.DispatcherLooksUpAndChecksShape := by
  intro s hf hp hc
  have h := step_lookup hp hf hc
  rw [State.code] at h
  have hfront := step_front (by simp [hp]) h
  refine ⟨_, h, step_sameRegisters (.inr (.inr hp)) h, hfront.toSameDevice,
    ⟨?_, hfront.answers, hfront.calls⟩, ?_⟩
  · split
    · rfl
    · split <;> rfl
  · split
    · exact ⟨rfl, rfl, rfl, rfl⟩
    · split
      · exact ⟨rfl, rfl, rfl, rfl⟩
      · exact ⟨rfl, rfl, rfl, hc⟩

end Sys2Proof.Machine
end

section
/-! PROOFS. The family of 40_frame_pipeline.md, second part: a whole frame through the command cycle (R120), and what
a flipped bit does to it (R129). -/

namespace Sys2Proof.Machine

/-! ### A frame's fields in the buffer (R90 to R94) -/

/-- The covered region, its length byte `N = P + 5` (R91). -/
theorem coveredBytes_eq (c : Byte) (pl : List Byte) :
    coveredBytes c pl = BitVec.ofNat 8 (pl.length + 5) :: c :: pl := by
  rw [coveredBytes, show 1 + pl.length + 4 = pl.length + 5 by omega]
  rfl

/-- The buffer starts with a whole frame: code, payload and the CRC field as declared (R90, R115). -/
structure FrameAtStart (s : State) (c : Byte) (pl : List Byte) (d : W32) : Prop where
  lengthFits : pl.length + 5 ≤ 255
  bytes : ∃ tail, s.fb = coveredBytes c pl ++ (le32Bytes d ++ tail)

section
variable {s : State} {c : Byte} {pl : List Byte} {d : W32}

theorem FrameAtStart.lenLatch (h : FrameAtStart s c pl d) : s.lenLatch = pl.length + 5 := by
  obtain ⟨tail, hfb⟩ := h.bytes
  rw [State.lenLatch, State.fbAt, hfb, coveredBytes_eq]
  exact (BitVec.toNat_ofNat _ _).trans (Nat.mod_eq_of_lt (Nat.lt_succ_of_le h.lengthFits))

theorem FrameAtStart.code (h : FrameAtStart s c pl d) : s.code = c := by
  obtain ⟨tail, hfb⟩ := h.bytes
  rw [State.code, State.fbAt, hfb, coveredBytes_eq]
  rfl

theorem FrameAtStart.payload (h : FrameAtStart s c pl d) : s.payload = pl := by
  obtain ⟨tail, hfb⟩ := h.bytes
  simp [State.payload, State.payloadLen, h.lenLatch, hfb, coveredBytes_eq]

theorem FrameAtStart.covered (h : FrameAtStart s c pl d) : s.covered = coveredBytes c pl := by
  obtain ⟨tail, hfb⟩ := h.bytes
  rw [State.covered, h.lenLatch, hfb]
  exact List.take_left' (coveredBytes_length c pl)

theorem FrameAtStart.declaredCrc (h : FrameAtStart s c pl d) : s.declaredCrc = d := by
  obtain ⟨tail, hfb⟩ := h.bytes
  have hat : ∀ k, s.fbAt (pl.length + 2 + k) = (le32Bytes d ++ tail).getD k 0 := fun k => by
    rw [State.fbAt, hfb, List.getD_append_right _ _ _ _ (by simp), coveredBytes_length, Nat.add_sub_cancel_left]
  rw [State.declaredCrc, h.lenLatch]
  exact (congr (congr (congr (congrArg le32Of (hat 0)) (hat 1)) (hat 2)) (hat 3)).trans (le32Of_le32Bytes d)

/-- The verifier compares the declared checksum with that of the covered region (R94, R126). -/
theorem FrameAtStart.crcMatches_iff (h : FrameAtStart s c pl d) :
    s.crcMatches = true ↔ crc32 s.cfg.crc (coveredBytes c pl) = d := by
  rw [State.crcMatches, decide_eq_true_eq, h.covered, h.declaredCrc]

end

/-! ### Runs, one step longer -/

theorem runSteps_one (s : State) : runSteps 1 s = step s := by
  simp only [runSteps]
  cases step s <;> rfl

theorem runSteps_succ {k : Nat} {s t : State} (h : runSteps k s = .next t) : runSteps (k + 1) s = step t :=
  (runSteps_add k 1 h).trans (runSteps_one t)

/-! ### Reception: the two transport calls of a frame (R121, R123) -/

/-- Storing inside the buffer. -/
theorem storeFb_fb_of_fits {pos : Nat} {bs : List Byte} {s : State} (h : pos + bs.length ≤ s.fb.length) :
    (storeFb pos bs s).fb = s.fb.take pos ++ bs ++ s.fb.drop (pos + bs.length) := by
  rw [storeFb_fb, List.take_of_length_le]
  simp
  omega

/-- A whole frame, length byte `n` and body, has been received in two calls and awaits the verifier. -/
structure Received (n : Byte) (body : List Byte) (rest : List RxItem) (s t : State) : Prop
    extends FrontRun s t where
  phase : t.phase = .verify
  cfg : t.cfg = s.cfg
  fb : ∃ tail, t.fb = n :: (body ++ tail)
  rxIn : t.rxIn = rest
  events : t.events = s.events ++ [.rx 1 (.bytes [n]), .rx body.length (.bytes body)]

/-- The first two steps of a cycle receive the frame at the head of what the transport delivers. -/
theorem runSteps_received {n : Byte} {body : List Byte} {rest : List RxItem} {s : State} (hi : Inv s)
    (hp : s.phase = .awaitLen) (hn : n.toNat = body.length) (h5 : 5 ≤ body.length)
    (hcap : body.length + 1 ≤ s.cfg.bufCap) (hrx : s.rxIn = (n :: body).map .byte ++ rest) :
    ∃ t, runSteps 2 s = .next t ∧ Received n body rest s t := by
  obtain ⟨hr1, hq1⟩ := recv_of_bytes (bs := [n]) (q := body.map .byte ++ rest) hrx
  have e1 := step_lenByte hp hi.fb_pos hr1
  have h0 : n ≠ 0 := by rintro rfl; simp at hn; omega
  rw [if_neg (by simp only [h0, or_false]; omega)] at e1
  generalize hv : setPhase .awaitBody (storeFb 0 [n] (recv 1 s)) = v at e1
  have hvcap : v.cfg.bufCap = s.cfg.bufCap := hv ▸ rfl
  have hvlen : v.fb.length = s.fb.length := hv ▸ storeFb_length 0 [n] (recv 1 s)
  have hN : v.lenLatch = body.length := hv ▸ (storeFb_zero_lenLatch hi.fb_pos).trans hn
  have hvp : v.phase = .awaitBody := hv ▸ rfl
  have hve : v.events = s.events ++ [.rx 1 (.bytes [n])] := by rw [← hv, ← hr1]; rfl
  have hvfb : v.fb = n :: s.fb.drop 1 := hv ▸ storeFb_fb_of_fits hi.fb_pos
  obtain ⟨hr2, hq2⟩ := recv_of_bytes (s := v) (bs := body) (q := rest) (hv ▸ hq1)
  have e2 := step_body hvp (by omega) (by omega) (hN ▸ hr2)
  rw [if_neg (by omega), hN] at e2
  have hfits : 1 + body.length ≤ v.fb.length := by rw [hvlen, hi.fbLength]; omega
  refine ⟨_, (runSteps_succ ((runSteps_one s).trans e1)).trans e2, ?_⟩
  exact {
    toFrontRun := (step_front (by simp [hp]) e1).trans (step_front (by simp [hvp]) e2)
    phase := rfl
    cfg := hv ▸ rfl
    fb := ⟨v.fb.drop (1 + body.length), (storeFb_fb_of_fits hfits).trans (by simp [hvfb])⟩
    rxIn := hq2
    events := by simp [hr2, hve] }

/-! ### A frame's cycle up to its handler (R120) -/

/-- A frame at the head of what the transport delivers is received in two steps, as the frame it is. -/
theorem runSteps_frame {s : State} {c : Byte} {pl : List Byte} {d : W32} {rest : List RxItem} (hi : Inv s)
    (hp : s.phase = .awaitLen) (hcap : pl.length + 6 ≤ s.cfg.bufCap)
    (hrx : s.rxIn = (coveredBytes c pl ++ le32Bytes d).map .byte ++ rest) :
    ∃ t, runSteps 2 s = .next t ∧ FrameAtStart t c pl d ∧ t.holdsFrame ∧
      Received (BitVec.ofNat 8 (pl.length + 5)) (c :: (pl ++ le32Bytes d)) rest s t := by
  have h256 := hi.bufCap_bounds.2
  have hlen : (c :: (pl ++ le32Bytes d)).length = pl.length + 5 := by simp
  obtain ⟨t, ht, hr⟩ := runSteps_received (n := BitVec.ofNat 8 (pl.length + 5))
    (body := c :: (pl ++ le32Bytes d)) hi hp (by rw [hlen, BitVec.toNat_ofNat, Nat.mod_eq_of_lt (by omega)])
    (by omega) (by omega) (by rw [hrx, coveredBytes_eq]; rfl)
  obtain ⟨tail, hfb⟩ := hr.fb
  have hs : FrameAtStart t c pl d := ⟨by omega, tail, by rw [hfb, coveredBytes_eq]; simp⟩
  exact ⟨t, ht, hs, ⟨by rw [hs.lenLatch]; omega, by rw [hs.lenLatch, hr.cfg]; omega⟩, hr⟩

/-- Settles O14: the frame is received (`runSteps_frame`), and the checksum is not the declared one. -/
theorem badChecksumDrawsOneNack : Obligations.BadChecksumDrawsOneNack := by
  intro s c pl d rest hi hp hcap hd hrx
  obtain ⟨t, ht, hs, hf, hr⟩ := runSteps_frame hi hp hcap hrx
  have hm : ¬ t.crcMatches = true := by
    rw [hs.crcMatches_iff, hr.cfg]
    exact hd.symm
  have e := step_checksum hr.phase hf
  rw [if_neg hm] at e
  have hfront := hr.toFrontRun.trans (step_front (by simp [hr.phase]) e)
  refine ⟨_, (runSteps_succ ht).trans e, ⟨rfl, rfl, ?_⟩, hr.rxIn, hr.cfg, hfront.toSameDevice, hfront.answers,
    hfront.calls, ?_⟩
  · simp [hr.cfg]
  · simp [hr.events, hr.cfg, hs.covered]

/-- Settles O13: the frame is received (`runSteps_frame`), its checksum is the declared one, its code is one of
the twelve and its payload long enough; the fifth step is the handler's. -/
theorem goodFrameRunsItsHandler : Obligations.GoodFrameRunsItsHandler := by
  intro s i rest hi hp hw hrx
  have hfits := Instr.lengthByteFits_of_wf hw
  have hcap : i.payload.length + 6 ≤ s.cfg.bufCap := by
    rw [Instr.payload_length]
    exact of_decide_eq_true (Bool.and_eq_true_iff.mp hw).2
  obtain ⟨t, ht, hs, hf, hr⟩ := runSteps_frame hi hp hcap hrx
  have hm : t.crcMatches = true := by rw [hs.crcMatches_iff, hr.cfg]
  have e3 := step_checksum hr.phase hf
  rw [if_pos hm] at e3
  have hs3 : FrameAtStart (setPhase .dispatch (checkCrc t)) i.code i.payload _ := ⟨hs.lengthFits, hs.bytes⟩
  have e4 := step_lookup (s := setPhase .dispatch (checkCrc t)) rfl hf hm
  rw [hs3.code, hs3.payload, if_neg (not_not.mpr i.code_mem_cmdSet), Instr.payloadShapeOk hw,
    if_neg Bool.false_ne_true.symm] at e4
  have h4 := (runSteps_succ ((runSteps_succ ht).trans e3)).trans e4
  have hfront := (hr.toFrontRun.trans (step_front (by simp [hr.phase]) e3)).trans (step_front (by simp) e4)
  have hfetch : (setPhase .exec (setPhase .dispatch (checkCrc t))).fetch = .instr i := by
    obtain ⟨tail, hfb⟩ := hs.bytes
    exact fetch_of_encode hfits (hfb.trans (List.append_assoc _ _ _).symm)
  refine ⟨_, h4, rfl, hfetch, hm, hr.rxIn, hr.cfg, hfront.toSameDevice, hfront.answers, hfront.calls, ?_,
    (runSteps_succ h4).trans (step_exec rfl hfetch)⟩
  simp [hr.events, hr.cfg, hs.covered, encode, frameBytes, coveredBytes_eq, Instr.payload_length]

/-! ### Flipped bits (R129) -/

theorem le32Of_inj {a0 a1 a2 a3 b0 b1 b2 b3 : Byte} (h : le32Of a0 a1 a2 a3 = le32Of b0 b1 b2 b3) :
    a0 = b0 ∧ a1 = b1 ∧ a2 = b2 ∧ a3 = b3 := by
  simpa [le32Bytes_le32Of] using congrArg le32Bytes h

/-- Equal declared checksums have equal bytes in the CRC field (R94). -/
theorem fbAt_eq_of_declaredCrc_eq {s t : State} (hN : t.lenLatch = s.lenLatch) (h : t.declaredCrc = s.declaredCrc)
    {j : Nat} (h1 : s.lenLatch ≤ j + 3) (h2 : j ≤ s.lenLatch) (h3 : 3 ≤ s.lenLatch) : t.fbAt j = s.fbAt j := by
  simp only [State.declaredCrc, hN] at h
  obtain ⟨e0, e1, e2, e3⟩ := le32Of_inj h
  obtain rfl | rfl | rfl | rfl : j = s.lenLatch - 3 ∨ j = s.lenLatch - 2 ∨ j = s.lenLatch - 1 ∨ j = s.lenLatch := by
    omega
  all_goals assumption

/-- The state with one bit of its buffer flipped. -/
def State.withFlippedBit (s : State) (i b : Nat) : State := { s with fb := flipBit s.fb i b }

theorem withFlippedBit_fbAt_of_ne {s : State} {i j : Nat} (h : i ≠ j) (b : Nat) :
    (s.withFlippedBit i b).fbAt j = s.fbAt j := by
  simp [State.fbAt, State.withFlippedBit, flipBit, h]

theorem withFlippedBit_fbAt_self_ne {s : State} {i b : Nat} (hi : i < s.fb.length) (hb : b < 8) :
    (s.withFlippedBit i b).fbAt i ≠ s.fbAt i := by
  intro h
  have hbit := congrArg (fun x => BitVec.getLsbD x b) h
  simp [State.fbAt, State.withFlippedBit, flipBit, hi, hb] at hbit

/-- A flip behind the length byte leaves the frame's length alone. -/
theorem withFlippedBit_lenLatch {s : State} {i : Nat} (h : 1 ≤ i) (b : Nat) :
    (s.withFlippedBit i b).lenLatch = s.lenLatch :=
  congrArg BitVec.toNat (withFlippedBit_fbAt_of_ne (by omega) b)

theorem withFlippedBit_covered {s : State} {i : Nat} (h : 1 ≤ i) (b : Nat) :
    (s.withFlippedBit i b).covered = flipBit s.covered i b := by
  rw [State.covered, withFlippedBit_lenLatch h]
  exact List.take_modify _ _ _ _

/-- A flipped bit of the covered region changes the checksum, one of the CRC field the declared one (R129). -/
theorem withFlippedBit_crcMatches {s : State} {i b : Nat} (hf : s.holdsFrame) (hl : s.fb.length = s.cfg.bufCap)
    (hm : s.crcMatches = true) (hsees : SeesEveryFlippedBit (crc32 s.cfg.crc)) (h1 : 1 ≤ i)
    (hi : i ≤ s.lenLatch) (hb : b < 8) : (s.withFlippedBit i b).crcMatches = false := by
  obtain ⟨h5, hcap⟩ := hf
  have hN := withFlippedBit_lenLatch (s := s) h1 b
  have hcov := withFlippedBit_covered (s := s) h1 b
  have hlen : s.covered.length = s.lenLatch - 3 := by simp [State.covered]; omega
  rw [State.crcMatches, decide_eq_true_eq] at hm
  rw [State.crcMatches, decide_eq_false_iff_not, hcov]
  by_cases hc : i < s.lenLatch - 3
  · have hd : (s.withFlippedBit i b).declaredCrc = s.declaredCrc := by
      simp only [State.declaredCrc, hN]
      congr 1 <;> exact withFlippedBit_fbAt_of_ne (by omega) b
    rw [hd, ← hm]
    exact hsees s.covered i b (hlen ▸ hc) hb
  · rw [flipBit, List.modify_eq_self (by omega)]
    intro hd
    exact withFlippedBit_fbAt_self_ne (by omega) hb
      (fbAt_eq_of_declaredCrc_eq hN (hd.symm.trans hm) (by omega) hi (by omega))

/-- Settles O16: the flip is behind the length byte, so the verifier still finds a whole frame, and its checksum is
not the declared one (`withFlippedBit_crcMatches`). -/
theorem flippedBitDrawsNack : Obligations.FlippedBitDrawsNack := by
  intro s i b hi hp hm hsees h1 hN hb
  have hk := hi.phaseIs
  simp only [State.phaseOk, hp] at hk
  obtain ⟨hf, -⟩ := hk
  have hf' : (s.withFlippedBit i b).holdsFrame := by
    rw [State.holdsFrame, withFlippedBit_lenLatch h1]
    exact hf
  have e := step_checksum (s := s.withFlippedBit i b) hp hf'
  rw [withFlippedBit_crcMatches hf hi.fbLength hm hsees h1 hN hb, if_neg Bool.false_ne_true] at e
  refine ⟨_, e, ⟨rfl, rfl, rfl⟩, ⟨rfl, rfl, rfl, fun _ => rfl⟩,
    crc32 s.cfg.crc (s.withFlippedBit i b).covered, ?_⟩
  rw [← withFlippedBit_lenLatch h1 b]
  exact List.append_assoc _ _ _

end Sys2Proof.Machine
end

section
/-! PROOFS. The family of 41_query_commands.md: each query sends one reply and leaves the machine alone (R150). -/

namespace Sys2Proof.Machine

/-! ### What a query leaves alone (R150) -/

/-- A handler that does no more than add events, and then ends its cycle, has only replied. -/
theorem onlyReplied_of_events (s : State) (evs : List Event) :
    OnlyReplied s (beginCycle { s with events := evs }) where
  begun := ⟨rfl, rfl, rfl⟩
  regs := ⟨rfl, rfl, rfl, rfl, rfl, rfl, rfl, rfl, rfl, rfl⟩
  device := ⟨rfl, rfl, rfl, fun _ => rfl⟩
  used := ⟨rfl, rfl, rfl⟩

/-- What a command does whose whole handler is one reply (R150, R250). -/
theorem onlyReplied_of_exec {i : Instr} {s : State} {bs : List Byte}
    (h : exec i s = .next (raise .replied (send bs s))) :
    ∃ t, exec i s = .next t ∧ Added s t [.tx bs] ∧ OnlyReplied s t :=
  ⟨_, h, by simp, onlyReplied_of_events s _⟩

/-! ### The replies (R151 to R154) -/

/-- The smallest frame of GET_VERSION (R151): its length byte counts the code and the checksum. -/
theorem encode_getVersion_nil (crc : List Byte → W32) :
    encode crc (.getVersion []) = [0x05, 0x10] ++ le32Bytes (crc [0x05, 0x10]) := by
  rw [encode, frameBytes, coveredBytes_eq]
  rfl

/-- Settles O17: the handler is one reply, so nothing else changes (`onlyReplied_of_exec`). -/
theorem getVersionReplies : Obligations.GetVersionReplies :=
  ⟨encode_getVersion_nil, fun _ _ => onlyReplied_of_exec rfl⟩

/-- Settles O18: the handler is one reply, and `cmdSet` lists the twelve codes. -/
theorem getHelpReplies : Obligations.GetHelpReplies :=
  fun _ _ => onlyReplied_of_exec rfl

/-- Settles O19: the handler is one reply, of the configuration's `chipId`. -/
theorem getChipIdReplies : Obligations.GetChipIdReplies :=
  fun _ _ => onlyReplied_of_exec rfl

/-- Settles O20: reading the level adds its event and no more, so here too only events are added
(`onlyReplied_of_events`); the byte sent is `Level.toByte`, the level's number (R51). -/
theorem getProtectionStatusReplies : Obligations.GetProtectionStatusReplies :=
  fun s _ => ⟨_, rfl, List.append_assoc s.events [.ropRead s.rop] _, onlyReplied_of_events s _⟩

end Sys2Proof.Machine
end

section
/-! PROOFS. The family of 42_jump.md: which addresses the validator accepts (R170, R171), and what JUMP_TO_ADDRESS
does with its address (R172 to R174). -/

namespace Sys2Proof.Machine

/-! ### The Address Validator (R170, R171) -/

/-- The address lies in the closed region `[base, last]` (R8). -/
def InRegion (base last a : W32) : Prop := base ≤ a ∧ a ≤ last

theorem isValid_iff (c : Cfg) (a : W32) :
    isValid c a = true ↔ InRegion c.ramBase c.ramEnd a ∨ InRegion c.flashBase c.flashEnd a := by
  simp only [isValid, InRegion, Bool.or_eq_true, Bool.and_eq_true, decide_eq_true_eq]

/-- Settles O22: addresses are compared as the numbers they are (`isValid_iff`). -/
theorem validatorAcceptsExactlyTheRegions : Obligations.ValidatorAcceptsExactlyTheRegions := isValid_iff

theorem isValid_eq_false {c : Cfg} {a : W32} (hram : ¬ InRegion c.ramBase c.ramEnd a)
    (hflash : ¬ InRegion c.flashBase c.flashEnd a) : isValid c a = false :=
  Bool.eq_false_of_not_eq_true fun h => ((isValid_iff c a).mp h).elim hram hflash

/-- The two regions of an admitted configuration are not empty, and they are disjoint (R8). -/
theorem Cfg.regions_of_wf {c : Cfg} (h : c.wf = true) :
    c.ramBase ≤ c.ramEnd ∧ c.flashBase ≤ c.flashEnd ∧ (c.ramEnd < c.flashBase ∨ c.flashEnd < c.ramBase) := by
  simp only [Cfg.wf, Cfg.ramOk, Cfg.flashOk, Cfg.disjointOk, Bool.and_eq_true, Bool.or_eq_true,
    decide_eq_true_eq] at h
  obtain ⟨⟨⟨⟨⟨⟨-, hram⟩, hflash⟩, hdisj⟩, -⟩, -⟩, -⟩ := h
  exact ⟨hram, hflash, hdisj⟩

/-- The address after a region's last one is outside that region, and inside one disjoint from it only as that
one's first address (R171). -/
theorem succ_last_outside {base last base' last' : W32} (hle : base ≤ last)
    (hdisj : last < base' ∨ last' < base) (hmax : last ≠ 0xFFFFFFFF) (hadj : last + 1 ≠ base') :
    ¬ InRegion base last (last + 1) ∧ ¬ InRegion base' last' (last + 1) := by
  unfold InRegion
  constructor <;> bv_omega

/-- The address before a region's first one is outside that region, and inside one disjoint from it only as that
one's last address (R171). -/
theorem pred_base_outside {base last base' last' : W32} (hle : base ≤ last)
    (hdisj : last < base' ∨ last' < base) (hzero : base ≠ 0) (hadj : base - 1 ≠ last') :
    ¬ InRegion base last (base - 1) ∧ ¬ InRegion base' last' (base - 1) := by
  unfold InRegion
  constructor <;> bv_omega

/-- Settles O23: a bound lies in its region, and the neighbour outside is in neither of the two. -/
theorem validatorEdges : Obligations.ValidatorEdges := by
  intro c h
  obtain ⟨hram, hflash, hdisj⟩ := Cfg.regions_of_wf h
  refine ⟨?_, ?_, ?_, ?_, fun hmax hadj => ?_, fun hzero hadj => ?_, fun hmax hadj => ?_, fun hzero hadj => ?_⟩
  · exact (isValid_iff c _).mpr (.inr ⟨BitVec.le_refl _, hflash⟩)
  · exact (isValid_iff c _).mpr (.inr ⟨hflash, BitVec.le_refl _⟩)
  · exact (isValid_iff c _).mpr (.inl ⟨BitVec.le_refl _, hram⟩)
  · exact (isValid_iff c _).mpr (.inl ⟨hram, BitVec.le_refl _⟩)
  · obtain ⟨hown, hother⟩ := succ_last_outside hflash hdisj.symm hmax hadj
    exact isValid_eq_false hother hown
  · obtain ⟨hown, hother⟩ := pred_base_outside hflash hdisj.symm hzero hadj
    exact isValid_eq_false hother hown
  · obtain ⟨hown, hother⟩ := succ_last_outside hram hdisj hmax hadj
    exact isValid_eq_false hown hother
  · obtain ⟨hown, hother⟩ := pred_base_outside hram hdisj hzero hadj
    exact isValid_eq_false hown hother

/-! ### JUMP_TO_ADDRESS (R172 to R174) -/

/-- A valid address is acknowledged, and control goes to the address after it (R172, R173). -/
theorem exec_jumpToAddress_of_valid {addr : W32} {s : State} (h : isValid s.cfg addr = true) (x : List Byte) :
    exec (.jumpToAddress addr x) s = .next (xfer (addr + 1) (send [0xCD, 0x01, 0x01] s)) := by
  rw [exec, execJumpToAddress, if_pos h]
  rfl

/-- An invalid address is reported in the status byte (R172). -/
theorem exec_jumpToAddress_of_invalid {addr : W32} {s : State} (h : isValid s.cfg addr = false) (x : List Byte) :
    exec (.jumpToAddress addr x) s = .next (raise .replied (send [0xCD, 0x01, 0x00] s)) := by
  rw [exec, execJumpToAddress, h, if_neg Bool.false_ne_true]
  rfl

/-- Settles O24: reply and transfer are two events, and of the registers only the phase and `handed_off` are
written; the target's sum is that of `progAddress`. -/
theorem validJumpTransfersControl : Obligations.ValidJumpTransfersControl := by
  intro s addr x h
  refine ⟨_, exec_jumpToAddress_of_valid h x, ?_, rfl, rfl, rfl, rfl, rfl, rfl, rfl, rfl, rfl, rfl, rfl, rfl, rfl,
    ⟨rfl, rfl, rfl, fun _ => rfl⟩, ⟨rfl, rfl, rfl⟩⟩
  simp [progAddress addr 1]

/-- Settles O25: the handler is one reply, so nothing else changes (`onlyReplied_of_exec`). -/
theorem invalidJumpIsReported : Obligations.InvalidJumpIsReported :=
  fun _ _ x h => onlyReplied_of_exec (exec_jumpToAddress_of_invalid h x)

/-- Settles O26, by induction on the number of steps (`runSteps_handedOff`). -/
theorem handedOffIsAbsorbing : Obligations.HandedOffIsAbsorbing :=
  fun k _ h => runSteps_handedOff h k

end Sys2Proof.Machine
end

section
/-! PROOFS. The family of 43_flash_erase.md: which ranges ERASE_FLASH refuses (R192, R193), and its bracket with and
without an erase request (R191, R194 to R197). -/

namespace Sys2Proof.Machine

/-! ### A refused range (R192, R193) -/

/-- A range that fails the count check or the index check is reported in the status byte, with no bracket
(R192, R193). -/
theorem exec_eraseFlash_of_refused {pidx pcnt : Byte} {s : State} (h : eraseAllowed s.cfg pidx pcnt = false)
    (x : List Byte) :
    exec (.eraseFlash pidx pcnt x) s = .next (raise .replied (send [0xCD, 0x01, 0x00] s)) := by
  rw [exec, execEraseFlash, h, if_neg Bool.false_ne_true]
  rfl

/-- R192's count check or R193's index check fails, as numbers. -/
theorem eraseAllowed_eq_false {c : Cfg} {pidx pcnt : Byte}
    (h : c.maxPage < pcnt.toNat ∨ (pidx ≠ 0xFF ∧ c.maxPage ≤ pidx.toNat)) : eraseAllowed c pidx pcnt = false := by
  simp only [eraseAllowed, Bool.and_eq_false_iff, Bool.or_eq_false_iff, decide_eq_false_iff_not, Nat.not_le,
    Nat.not_lt]
  exact h

/-- Settles O27: the handler is one reply, so nothing else changes (`onlyReplied_of_exec`). -/
theorem badEraseRangeIsRefused : Obligations.BadEraseRangeIsRefused :=
  fun _ _ _ x h => onlyReplied_of_exec (exec_eraseFlash_of_refused (eraseAllowed_eq_false h) x)

/-! ### The erase step's frame (R191) -/

/-- What the erase step leaves alone after `n` driver calls; the flag `e` and the bytes of memory it may write. -/
structure EraseFrame (n : Nat) (s t : State) : Prop extends UsedAnswers n s t where
  cfg : t.cfg = s.cfg
  handedOff : t.handedOff = s.handedOff
  wi : t.wi = s.wi
  u : t.u = s.u
  w : t.w = s.w
  p : t.p = s.p
  r : t.r = s.r
  crcAcc : t.crcAcc = s.crcAcc
  obLocked : t.obLocked = s.obLocked
  rop : t.rop = s.rop

theorem flErase_frame (req : EraseReq) (s : State) : EraseFrame 1 s (flErase req s) :=
  ⟨⟨rfl, by simp, rfl⟩, rfl, rfl, rfl, rfl, rfl, rfl, rfl, rfl, rfl, rfl⟩

theorem skipErase_frame (s : State) : EraseFrame 0 s (skipErase s) :=
  ⟨⟨rfl, rfl, rfl⟩, rfl, rfl, rfl, rfl, rfl, rfl, rfl, rfl, rfl, rfl⟩

/-- What ERASE_FLASH leaves alone when its erase step has made `n` calls and led to `v` (R191). -/
theorem EraseFrame.flashFrame {n : Nat} {s v : State} (h : EraseFrame n (flUnlock s) v) (bs : List Byte) :
    FlashFrame (n + 2) s (beginCycle (send bs (flLock v))) where
  begun := ⟨rfl, rfl, congrArg (fun c : Cfg => List.replicate c.bufCap 0) h.cfg⟩
  used := ⟨h.rxIn, by simp [h.answers], by simp [h.calls]; omega⟩
  cfg := h.cfg
  handedOff := h.handedOff
  p := h.p
  r := h.r
  crcAcc := h.crcAcc
  obLocked := h.obLocked
  rop := h.rop

/-- How an allowed ERASE_FLASH ends when its erase step has made `n` calls and led to `v`: the lock, the reply, and
all else as the erase step left it (R191, R196). -/
theorem exec_eraseFlash_of_step {n : Nat} {pidx pcnt : Byte} {s v : State}
    (ha : eraseAllowed s.cfg pidx pcnt = true)
    (hstep : eraseStep (eraseRequest s.cfg pidx pcnt) (flUnlock s) = v)
    (hf : EraseFrame n (flUnlock s) v) (x : List Byte) :
    ∃ t, exec (.eraseFlash pidx pcnt x) s = .next t ∧
      Added v t [.flLock (s.answerAt (n + 1)),
        .tx [0xCD, 0x01, if s.answerAt 0 = .ok ∧ v.e = .ok ∧ s.answerAt (n + 1) = .ok then 0x01 else 0x00]] ∧
      FlashFrame (n + 2) s t ∧ t.wi = s.wi ∧ t.w = s.w ∧ t.u = s.answerAt 0 ∧ t.e = v.e ∧ t.mem = v.mem ∧
      t.l = s.answerAt (n + 1) ∧ (s.answerAt (n + 1) = .ok → t.flLocked = true) := by
  have hl : v.answerAt 0 = s.answerAt (n + 1) := (answerAt_of_used hf.answers hf.calls 0).trans (by simp)
  rw [exec_eraseFlash ha, eraseBracket, hstep]
  refine ⟨_, rfl, ?_, hf.flashFrame _, hf.wi, hf.w, hf.u, rfl, rfl, hl,
    fun h => flLock_flLocked_of_ok (hl.trans h)⟩
  simp [hl, State.eraseStatus, hf.u, eraseOk, eraseFail]

/-! ### The bracket with its one request (R191, R194, R195) -/

/-- Whatever an erase call answers, a byte outside the request's range stays (R67). -/
theorem flErase_read_outside {req : EraseReq} {s : State} {a : Nat}
    (h : ¬ (req.base s.cfg ≤ a ∧ a < req.base s.cfg + req.size s.cfg)) :
    (flErase req s).mem.read a = s.mem.read a := by
  refine flErase_read_unnamed fun p hp ha => h ?_
  obtain ⟨hlo, hhi, -⟩ := (req.named_iff s.cfg a).mp ⟨p, hp, ha⟩
  exact ⟨hlo, hhi⟩

/-- Settles O28: the unlock answered `ok` and the range is not empty, so the erase step is the one call. -/
theorem eraseMakesOneRequest : Obligations.EraseMakesOneRequest := by
  intro s pidx pcnt x hc hi h0
  have hstep : eraseStep (eraseRequest s.cfg pidx pcnt) (flUnlock s) =
      flErase (eraseRequest s.cfg pidx pcnt) (flUnlock s) := by
    rw [eraseStep, if_pos ⟨h0, eraseRequest_nonempty hi⟩]
  obtain ⟨t, ht, hev, hframe, hwi, hw, hu, he, hmem, hl, hlock⟩ :=
    exec_eraseFlash_of_step (eraseAllowed_of_le hc (hi.imp_right And.left)) hstep (flErase_frame _ _) x
  have he1 : t.e = s.answerAt 1 := he.trans (flUnlock_answerAt s 0)
  refine ⟨t, ht, ?_, hframe, hwi, hw, hu.trans h0, he1, hl, hlock, fun a ha => ?_⟩
  · simp [hev, h0, eraseRequest]
  · rw [hmem]
    exact flErase_read_outside (s := flUnlock s) ha

/-! ### The bracket without a request (R191, R196, R197) -/

/-- The clamped request of a page and the count 0 is empty (R194, R197). -/
theorem eraseRequest_empty {c : Cfg} {pidx pcnt : Byte} (hi : pidx ≠ 0xFF) (hn : pcnt = 0) :
    (eraseRequest c pidx pcnt).isEmpty = true := by
  subst hn
  rw [eraseRequest, if_neg hi]
  simp [EraseReq.isEmpty]

/-- With a failed unlock or an empty range the erase step makes no call (R191, R197). -/
theorem eraseStep_skipped {req : EraseReq} {s : State} (h : s.u = .fail ∨ req.isEmpty = true) :
    eraseStep req s = skipErase s := by
  rw [eraseStep, if_neg]
  rintro ⟨hu, he⟩
  simp [hu, he] at h

/-- Settles O29: the erase step makes no call, and the flag `e` follows `u` (`eraseStep_skipped`). -/
theorem eraseWithoutRequest : Obligations.EraseWithoutRequest := by
  intro s pidx pcnt x hc hi hskip
  have hstep : eraseStep (eraseRequest s.cfg pidx pcnt) (flUnlock s) = skipErase (flUnlock s) :=
    eraseStep_skipped (hskip.imp_right fun ⟨hpage, hn⟩ => eraseRequest_empty hpage hn)
  obtain ⟨t, ht, hev, hframe, hwi, hw, hu, he, hmem, hl, hlock⟩ :=
    exec_eraseFlash_of_step (eraseAllowed_of_le hc hi) hstep (skipErase_frame _) x
  refine ⟨t, ht, ?_, hframe, hwi, hw, hu, he, hl, hlock, fun a => congrArg (Memory.read · a) hmem⟩
  simp [hev]

end Sys2Proof.Machine
end

section
/-! PROOFS. The family of 44_flash_write.md: what MEMORY_WRITE does at an invalid address (R212) and when its unlock
fails (R211, R213, R215). -/

namespace Sys2Proof.Machine

/-! ### An invalid first address (R212) -/

/-- An invalid first address is reported in the status byte, with no bracket (R212). -/
theorem exec_memoryWrite_of_invalid {addr : W32} {s : State} (h : isValid s.cfg addr = false) (d x : List Byte) :
    exec (.memoryWrite addr d x) s = .next (raise .replied (send [0xCD, 0x01, 0x00] s)) := by
  rw [exec, execMemoryWrite, h, if_neg Bool.false_ne_true]
  rfl

/-- Settles O31: the handler is one reply, so nothing else changes (`onlyReplied_of_exec`). -/
theorem writeToInvalidAddressIsRefused : Obligations.WriteToInvalidAddressIsRefused :=
  fun _ _ d x h => onlyReplied_of_exec (exec_memoryWrite_of_invalid h d x)

/-! ### The bracket without its program loop (R211, R213, R215) -/

/-- With the unlock's answer `fail` the bracket is unlock and lock; the loop's registers are set all the same
(R211, R215). -/
theorem writeBracket_locked {s : State} (h0 : s.answerAt 0 = .fail) (addr : W32) (d : List Byte) :
    writeBracket addr d s = flLock (beginLoop (flUnlock s)) := by
  rw [writeBracket, writeStep, if_neg (by simp [h0])]

/-- Settles O34: the bracket has two calls and no program call (`writeBracket_locked`), and the failed unlock
decides the status. -/
theorem writeWithoutUnlockProgramsNothing : Obligations.WriteWithoutUnlockProgramsNothing := by
  intro s addr d x hv h0
  have hframe := (beginLoop_frame (flUnlock s)).flashFrame (n := 0) rfl rfl
  rw [exec_memoryWrite hv, writeBracket_locked h0]
  refine ⟨_, rfl, ?_, hframe _, by simp, by simp [h0], by simp, by simp, by simp, fun h1 => ?_, by simp⟩
  · simp [h0, State.writeStatus, writeFail]
  · rw [beginCycle_flLocked, send_flLocked, flLock_flLocked_of_ok (by simpa using h1)]

end Sys2Proof.Machine
end

section
/-! PROOFS. The family of 45_protection_level.md: what DISABLE_RW_PROTECT does when the level may not be asked for
(R233). -/

namespace Sys2Proof.Machine

/-- Only levels 0 and 1 may be asked for (R231, R233; the spec's decision D18). -/
theorem requestedLevel_of_two_le {lvl : Byte} (h : 2 ≤ lvl.toNat) : requestedLevel lvl = none := by
  have h0 : lvl ≠ 0 := by rintro rfl; exact absurd h (by decide)
  have h1 : lvl ≠ 1 := by rintro rfl; exact absurd h (by decide)
  rw [requestedLevel, if_neg h0, if_neg h1]

/-- A level that may not be asked for is reported in the status byte, with no bracket (R233). -/
theorem exec_disableRwProtect_of_none {lvl : Byte} {s : State} (h : requestedLevel lvl = none) (x : List Byte) :
    exec (.disableRwProtect lvl x) s = .next (raise .replied (send [0xCD, 0x01, 0x00] s)) := by
  rw [exec, execDisableRwProtect, h]
  rfl

/-- Settles O35: the handler is one reply, so nothing else changes (`onlyReplied_of_exec`). -/
theorem levelTwoRequestIsRefused : Obligations.LevelTwoRequestIsRefused :=
  fun _ _ x h => onlyReplied_of_exec (exec_disableRwProtect_of_none (requestedLevel_of_two_le h) x)

end Sys2Proof.Machine
end

section
/-! PROOFS. The family of 46_unimplemented_commands.md: the four commands without behaviour acknowledge and leave
the machine alone (R250 to R254). -/

namespace Sys2Proof.Machine

/-- The four commands share one handler, whatever their payload (R251 to R254). -/
theorem exec_eq_acknowledgeOnly {x : List Byte} {i : Instr}
    (h : i = .enableRwProtect x ∨ i = .memoryRead x ∨ i = .getPageProtectionStatus x ∨ i = .readOtp x)
    (s : State) : exec i s = .next (acknowledgeOnly s) := by
  obtain rfl | rfl | rfl | rfl := h
  case inl => rfl -- ENABLE_RW_PROTECT (R251)
  case inr.inl => rfl -- MEMORY_READ (R252)
  case inr.inr.inl => rfl -- GET_PAGE_PROTECTION_STATUS (R253)
  case inr.inr.inr => rfl -- READ_OTP (R254)

/-- `ACK(0)` is the acknowledgement and a length of zero (R250; the spec's decision D10). -/
theorem ackReply_nil : ackReply [] = [0xCD, 0x00] := rfl

/-- Settles O21: the shared handler is one reply, `ACK(0)`, so nothing else changes (`onlyReplied_of_exec`). -/
theorem unimplementedCommandsAcknowledge : Obligations.UnimplementedCommandsAcknowledge := by
  intro s x i h
  have hexec := exec_eq_acknowledgeOnly h s
  rw [acknowledgeOnly, ackReply_nil] at hexec
  exact onlyReplied_of_exec hexec

end Sys2Proof.Machine
end

section
/-! PROOFS. The family of 60_exceptions.md, first part: what the steps before a handler leave alone (R270), and what
a step cut short leaves, from the calls the whole step makes (R285, N14). -/

namespace Sys2Proof.Machine

/-- Settles O44: a step before a handler is of the front end (`step_front`). -/
theorem onlyHandlersTouchTheDevice : Obligations.OnlyHandlersTouchTheDevice := by
  intro s t hp h
  have hf := step_front hp h
  exact ⟨hf.toSameDevice, hf.answers, hf.calls, hf.added⟩

/-! ### The calls of a step -/

section
variable {P : Event → Prop} {s t : State}

theorem stepEvents_eq {evs : List Event} (h : step s = .next t) (he : t.events = s.events ++ evs) :
    s.stepEvents = evs := by
  simp [State.stepEvents, h, he]

/-- The calls of a step that ends in a reply, and the reply. -/
theorem stepEvents_of_replied {evs : List Event} {bs : List Byte} (h : step s = .next (beginCycle (send bs t)))
    (he : t.events = s.events ++ evs) : s.stepEvents = evs ++ [.tx bs] :=
  stepEvents_eq h (by simp [he])

/-- What holds of every event a step adds holds of its calls. -/
theorem AddsOnly.stepEvents (ha : AddsOnly P s t) (h : step s = .next t) : ∀ ev, ev ∈ s.stepEvents → P ev := by
  obtain ⟨evs, he, hP⟩ := ha
  exact stepEvents_eq h he ▸ hP

/-- A handler's reply is its one transmission, and the next cycle makes no call. -/
theorem AddsOnly.replied {bs : List Byte} (h : AddsOnly P s t) (hP : P (.tx bs)) :
    AddsOnly P s (beginCycle (send bs t)) :=
  h.trans (.call rfl hP)

/-- The erase bracket makes no call but unlock, the one request and lock (R191, R196). -/
theorem eraseBracket_addsOnly {req : EraseReq} (hu : ∀ r, P (.flUnlock r)) (he : ∀ r, P (.flErase req r))
    (hl : ∀ r, P (.flLock r)) : AddsOnly P s (eraseBracket req s) := by
  have hunlock : AddsOnly P s (flUnlock s) := .call rfl (hu _)
  refine (hunlock.trans ?_).trans (.call rfl (hl _))
  obtain ⟨-, -, e⟩ | ⟨-, e⟩ := eraseStep_cases req (flUnlock s) <;> rw [e]
  · exact .call rfl (he _)
  · exact .silent rfl

theorem countWritten_events (s : State) : (countWritten s).events = s.events := by
  unfold countWritten
  split <;> rfl

theorem programLoop_addsOnly (addr : W32) (d : List Byte) (hp : ∀ a v r, P (.flProg a v r)) :
    AddsOnly P s (programLoop addr d s) := by
  induction d generalizing s with
  | nil => exact .silent rfl
  | cons b d ih =>
    rw [programLoop]
    split
    · exact (AddsOnly.call (flProg_events _ b s) (hp _ _ _)).trans (.trans (.silent (countWritten_events _)) ih)
    · exact .silent rfl

/-- The write bracket makes no call but unlock, program calls and lock (R211, R215). -/
theorem writeBracket_addsOnly (addr : W32) (d : List Byte) (hu : ∀ r, P (.flUnlock r))
    (hp : ∀ a v r, P (.flProg a v r)) (hl : ∀ r, P (.flLock r)) : AddsOnly P s (writeBracket addr d s) := by
  have hunlock : AddsOnly P s (flUnlock s) := .call rfl (hu _)
  refine (hunlock.trans ?_).trans (.call rfl (hl _))
  unfold writeStep
  split
  · exact (AddsOnly.silent (beginLoop_events _)).trans (programLoop_addsOnly addr d hp)
  · exact .silent rfl

/-- The level-change bracket makes no call but the four on the option bytes (R234). -/
theorem ropBracket_addsOnly (k : SetLevel) (hu : ∀ r, P (.obUnlock r)) (hp : ∀ enc r, P (.obProg enc r))
    (hr : ∀ r, P (.obReload r)) (hl : ∀ r, P (.obLock r)) : AddsOnly P s (ropBracket k s) := by
  have hunlock : AddsOnly P s (obUnlock s) := .call rfl (hu _)
  have hprogram (v : State) : AddsOnly P v (ropProgramStep k v) := by
    obtain ⟨-, e⟩ | ⟨-, e⟩ := ropProgramStep_cases k v <;> rw [e]
    · exact .call rfl (hp _ _)
    · exact .silent rfl
  have hreload (v : State) : AddsOnly P v (ropReloadStep k v) := by
    obtain ⟨-, -, e⟩ | ⟨-, e⟩ := ropReloadStep_cases k v <;> rw [e]
    · exact .call rfl (hr _)
    · exact .silent rfl
  exact ((hunlock.trans (hprogram _)).trans (hreload _)).trans (.call rfl (hl _))

end

/-! ### What a loss of power leaves -/

/-- The reset after the loss of power keeps the flash region (R55). -/
theorem powerLoss_read {s : State} (mode : BootMode) (n : Nat) (inCall : Bool) {a : Nat}
    (ha : inFlash s.cfg a) :
    (s.powerLoss mode n inCall).mem.read a = (s.cutShort n inCall).mem.read a := by
  obtain ⟨hlo, hhi⟩ := ha
  have hc := (cutShort_frame n inCall s).cfg
  exact resetFrom_read mode (hc ▸ hlo) (hc ▸ hhi)

/-- Settles O52: what persists is bounded by `cutShort_frame`, and the reset restores the rest (O50). -/
theorem powerLossRestoresTheInvariant : Obligations.PowerLossRestoresTheInvariant := by
  intro mode n inCall s hc hm
  have hcut := cutShort_frame n inCall s
  refine ⟨resetRestoresTheInvariant mode _ (hcut.cfg ▸ hc) (hcut.memWf hm), hcut.cfg, rfl, rfl, fun h2 => ?_⟩
  obtain hold | hasked := hcut.rop
  · exact hold ▸ h2
  · exact absurd (hasked.symm.trans h2) (by cases s.askedLevel <;> decide)

/-- The calls of ERASE_FLASH change no level and write inside the request's range only (R67, R191). -/
theorem eraseFlash_stepEvents {s : State} {pidx pcnt : Byte} {x : List Byte} (hp : s.phase = .exec)
    (hf : s.fetch = .instr (.eraseFlash pidx pcnt x)) : ∀ ev, ev ∈ s.stepEvents →
      ev.isLevelCall = false ∧ ∀ a, ev.writes s.cfg a →
        (Event.flErase (eraseRequest s.cfg pidx pcnt) .ok).writes s.cfg a := by
  cases ha : eraseAllowed s.cfg pidx pcnt with
  | false =>
    refine AddsOnly.stepEvents ?_ ((step_exec hp hf).trans (exec_eraseFlash_of_refused ha x))
    exact (AddsOnly.silent rfl).replied ⟨rfl, fun _ => False.elim⟩
  | true =>
    refine AddsOnly.stepEvents ?_ ((step_exec hp hf).trans (exec_eraseFlash ha x))
    refine (eraseBracket_addsOnly ?_ ?_ ?_).replied ⟨rfl, fun _ => False.elim⟩
    · exact fun _ => ⟨rfl, fun _ => False.elim⟩
    · exact fun _ => ⟨rfl, fun _ h => h⟩
    · exact fun _ => ⟨rfl, fun _ => False.elim⟩

/-- Settles O54: no call of the step writes outside the named pages (`eraseFlash_stepEvents`,
`EraseReq.named_iff`), so no cut of it does (`cutShort_frame`). -/
theorem powerLossInAnEraseTouchesNamedPagesOnly : Obligations.PowerLossInAnEraseTouchesNamedPagesOnly := by
  intro mode s pidx pcnt x n inCall hp hf
  have hcut := cutShort_frame n inCall s
  have hev := eraseFlash_stepEvents hp hf
  refine ⟨hcut.ropKept fun ev he => (hev ev he).1, fun a ha hunnamed => ?_⟩
  rw [powerLoss_read mode n inCall ha]
  refine hcut.mem a fun ev he hw => ?_
  obtain ⟨p, hnames, hpage⟩ := ((eraseRequest s.cfg pidx pcnt).named_iff s.cfg a).mpr ((hev ev he).2 a hw)
  exact hunnamed p hnames hpage

/-- A level that may be asked for is what the step's option-byte calls are about (R231). -/
theorem askedLevel_eq {s : State} {lvl : Byte} {x : List Byte} {k : SetLevel}
    (hf : s.fetch = .instr (.disableRwProtect lvl x)) (hk : requestedLevel lvl = some k) : s.askedLevel = k := by
  simp [State.askedLevel, hf, hk]

/-- The calls of the level change write no byte, and change the level only where one was asked for that may be
(R233, R234). -/
theorem disableRwProtect_stepEvents {s : State} {lvl : Byte} {x : List Byte} (hp : s.phase = .exec)
    (hf : s.fetch = .instr (.disableRwProtect lvl x)) : ∀ ev, ev ∈ s.stepEvents →
      (∀ a, ¬ ev.writes s.cfg a) ∧ (requestedLevel lvl = none → ev.isLevelCall = false) := by
  cases hk : requestedLevel lvl with
  | none =>
    refine AddsOnly.stepEvents ?_ ((step_exec hp hf).trans (exec_disableRwProtect_of_none hk x))
    exact (AddsOnly.silent rfl).replied ⟨fun _ => id, fun _ => rfl⟩
  | some k =>
    refine AddsOnly.stepEvents ?_ ((step_exec hp hf).trans (exec_disableRwProtect hk x s))
    refine (ropBracket_addsOnly k ?_ ?_ ?_ ?_).replied ⟨fun _ => id, by simp⟩
    · exact fun _ => ⟨fun _ => id, by simp⟩
    · exact fun _ _ => ⟨fun _ => id, by simp⟩
    · exact fun _ => ⟨fun _ => id, by simp⟩
    · exact fun _ => ⟨fun _ => id, by simp⟩

/-- Settles O55: `cutShort_frame` with the step's calls (`disableRwProtect_stepEvents`). -/
theorem powerLossInALevelChangeLeavesOldOrRequested :
    Obligations.PowerLossInALevelChangeLeavesOldOrRequested := by
  intro mode s lvl x n inCall hp hf
  have hcut := cutShort_frame n inCall s
  have hev := disableRwProtect_stepEvents hp hf
  constructor
  · cases hk : requestedLevel lvl with
    | none => exact .inl (hcut.ropKept fun ev he => (hev ev he).2 hk)
    | some k => exact hcut.rop.imp_right fun hasked => ⟨k, rfl, hasked.trans (by rw [askedLevel_eq hf hk])⟩
  · intro a ha
    rw [powerLoss_read mode n inCall ha]
    exact hcut.mem a fun ev he => (hev ev he).1 a

end Sys2Proof.Machine
end

section
/-! PROOFS. The family of 60_exceptions.md, second part: the calls of a step, done again one by one, leave what the
step leaves (R53, R285). -/

namespace Sys2Proof.Machine

/-! ### Doing a run's calls again -/

/-- Two states that every call but the checksum treats alike: equal but for what only the engine reads, its phase,
buffer and flags. -/
structure Twin (s s' : State) : Prop extends Alike [] [] s s' where
  rxIn : s'.rxIn = s.rxIn

section
variable {k : SetLevel} {s s' t v : State}

theorem Twin.refl (s : State) : Twin s s := ⟨⟨⟨rfl, rfl, rfl, rfl, rfl, rfl, rfl⟩, s.events, rfl, rfl⟩, rfl⟩

theorem Twin.sameBehindAReset (h : Twin s s') : SameBehindAReset s s' := by
  obtain ⟨evs, he, he'⟩ := h.events
  exact ⟨h.same.cfg, h.same.mem, h.same.rop, h.rxIn, h.same.answers, h.same.calls, he'.trans he.symm⟩

theorem recv_twin (h : Twin s s') (n : Nat) : Twin (recv n s) (recv n s') := by
  have hr : s'.rxAnswer n = s.rxAnswer n := by rw [State.rxAnswer, h.rxIn]; rfl
  refine ⟨h.toAlike.call { h.same with } rfl (by rw [recv_events, hr]), ?_⟩
  rw [recv_rxIn, h.rxIn]
  rfl

/-- The calls from `s` to `t`, done again from any twin of `s`, lead to a twin of `t`. -/
def Redoes (k : SetLevel) (s t : State) : Prop :=
  ∃ evs, t.events = s.events ++ evs ∧ ∀ s', Twin s s' → Twin t (redoAll k evs s')

theorem Redoes.trans (h : Redoes k s t) (g : Redoes k t v) : Redoes k s v := by
  obtain ⟨es, he, ht⟩ := h
  obtain ⟨fs, hf, hv⟩ := g
  refine ⟨es ++ fs, by rw [hf, he, List.append_assoc], fun s' hs => ?_⟩
  rw [redoAll_append]
  exact hv _ (ht s' hs)

/-- An operation that is one call. -/
theorem Redoes.call {ev : Event} (he : t.events = s.events ++ [ev])
    (h : ∀ s', Twin s s' → Twin t (redo k ev s')) : Redoes k s t := ⟨[ev], he, h⟩

/-- An operation that makes no call and writes the engine's registers only. -/
theorem Redoes.silent (h : SameForCommands t s) (he : t.events = s.events) (hr : t.rxIn = s.rxIn) :
    Redoes k s t := by
  refine ⟨[], by simp [he], fun s' hs => ⟨⟨?_, he ▸ hs.events⟩, hs.rxIn.trans hr.symm⟩⟩
  exact ⟨hs.same.cfg.trans h.cfg, hs.same.mem.trans h.mem, hs.same.rop.trans h.rop,
    hs.same.flLocked.trans h.flLocked, hs.same.obLocked.trans h.obLocked, hs.same.answers.trans h.answers,
    hs.same.calls.trans h.calls⟩

theorem Redoes.refl : Redoes k s s := .silent ⟨rfl, rfl, rfl, rfl, rfl, rfl, rfl⟩ rfl rfl

/-! ### Each operation (R40 to R52) -/

theorem recv_redoes (n : Nat) : Redoes k s (recv n s) := .call rfl fun _ h => recv_twin h n

theorem send_redoes (bs : List Byte) : Redoes k s (send bs s) :=
  .call rfl fun _ h => ⟨send_alike h.toAlike bs, h.rxIn⟩

theorem xfer_redoes (a : W32) : Redoes k s (xfer a s) :=
  .call rfl fun _ h => ⟨xfer_alike h.toAlike a, h.rxIn⟩

theorem ropRead_redoes : Redoes k s (ropRead s) :=
  .call rfl fun _ h => ⟨ropRead_alike h.toAlike, h.rxIn⟩

theorem flUnlock_redoes : Redoes k s (flUnlock s) :=
  .call rfl fun _ h => ⟨flUnlock_alike h.toAlike, h.rxIn⟩

theorem flLock_redoes : Redoes k s (flLock s) :=
  .call rfl fun _ h => ⟨flLock_alike h.toAlike, h.rxIn⟩

theorem flErase_redoes (req : EraseReq) : Redoes k s (flErase req s) :=
  .call rfl fun _ h => ⟨flErase_alike h.toAlike req, h.rxIn⟩

theorem flProg_redoes (a : W32) (b : Byte) : Redoes k s (flProg a b s) :=
  .call rfl fun _ h => ⟨flProg_alike h.toAlike a b, h.rxIn⟩

theorem obUnlock_redoes : Redoes k s (obUnlock s) :=
  .call rfl fun _ h => ⟨obUnlock_alike h.toAlike, h.rxIn⟩

theorem obLock_redoes : Redoes k s (obLock s) :=
  .call rfl fun _ h => ⟨obLock_alike h.toAlike, h.rxIn⟩

theorem obProg_redoes : Redoes k s (obProg k s) :=
  .call rfl fun _ h => ⟨obProg_alike h.toAlike k, h.rxIn⟩

theorem obReload_redoes : Redoes k s (obReload k s) :=
  .call rfl fun _ h => ⟨obReload_alike h.toAlike k, h.rxIn⟩

theorem storeFb_redoes (pos : Nat) (bs : List Byte) : Redoes k s (storeFb pos bs s) :=
  .silent ⟨rfl, rfl, rfl, rfl, rfl, rfl, rfl⟩ rfl rfl

theorem setPhase_redoes (ph : Phase) : Redoes k s (setPhase ph s) :=
  .silent ⟨rfl, rfl, rfl, rfl, rfl, rfl, rfl⟩ rfl rfl

theorem beginCycle_redoes : Redoes k s (beginCycle s) := .silent ⟨rfl, rfl, rfl, rfl, rfl, rfl, rfl⟩ rfl rfl

theorem skipErase_redoes : Redoes k s (skipErase s) := .silent ⟨rfl, rfl, rfl, rfl, rfl, rfl, rfl⟩ rfl rfl

theorem skipProgram_redoes : Redoes k s (skipProgram s) := .silent ⟨rfl, rfl, rfl, rfl, rfl, rfl, rfl⟩ rfl rfl

theorem skipReload_redoes : Redoes k s (skipReload s) := .silent ⟨rfl, rfl, rfl, rfl, rfl, rfl, rfl⟩ rfl rfl

theorem beginLoop_redoes : Redoes k s (beginLoop s) := .silent ⟨rfl, rfl, rfl, rfl, rfl, rfl, rfl⟩ rfl rfl

theorem countWritten_redoes : Redoes k s (countWritten s) := by
  unfold countWritten
  split
  · exact .silent ⟨rfl, rfl, rfl, rfl, rfl, rfl, rfl⟩ rfl rfl
  · exact .refl

/-- A reply, and the next cycle. -/
theorem Redoes.replied {bs : List Byte} (h : Redoes k s t) : Redoes k s (beginCycle (send bs t)) :=
  (h.trans (send_redoes bs)).trans beginCycle_redoes

/-! ### The brackets -/

theorem eraseBracket_redoes (req : EraseReq) : Redoes k s (eraseBracket req s) := by
  refine (flUnlock_redoes.trans ?_).trans flLock_redoes
  obtain ⟨-, -, e⟩ | ⟨-, e⟩ := eraseStep_cases req (flUnlock s) <;> rw [e]
  · exact flErase_redoes req
  · exact skipErase_redoes

theorem programLoop_redoes (addr : W32) (d : List Byte) : Redoes k s (programLoop addr d s) := by
  induction d generalizing s with
  | nil => exact .refl
  | cons b d ih =>
    rw [programLoop]
    split
    · exact ((flProg_redoes _ b).trans countWritten_redoes).trans ih
    · exact .refl

theorem writeBracket_redoes (addr : W32) (d : List Byte) : Redoes k s (writeBracket addr d s) := by
  refine (flUnlock_redoes.trans ?_).trans flLock_redoes
  unfold writeStep
  split
  · exact beginLoop_redoes.trans (programLoop_redoes addr d)
  · exact beginLoop_redoes

theorem ropBracket_redoes : Redoes k s (ropBracket k s) := by
  have hprogram (v : State) : Redoes k v (ropProgramStep k v) := by
    obtain ⟨-, e⟩ | ⟨-, e⟩ := ropProgramStep_cases k v <;> rw [e]
    · exact obProg_redoes
    · exact skipProgram_redoes
  have hreload (v : State) : Redoes k v (ropReloadStep k v) := by
    obtain ⟨-, -, e⟩ | ⟨-, e⟩ := ropReloadStep_cases k v <;> rw [e]
    · exact obReload_redoes
    · exact skipReload_redoes
  exact ((obUnlock_redoes.trans (hprogram _)).trans (hreload _)).trans obLock_redoes

end

/-! ### The steps -/

theorem awaitLenStep_redoes {k : SetLevel} {s t : State} (h : awaitLenStep s = .next t) : Redoes k s t := by
  have hr : Redoes k s (recv 1 s) := recv_redoes 1
  obtain ⟨-, e⟩ | ⟨b, -, hb⟩ := awaitLenStep_cases s
  · rw [e] at h; cases h
    exact hr.trans beginCycle_redoes
  have hs := hr.trans (storeFb_redoes 0 [b])
  obtain ⟨-, e⟩ | ⟨-, -, e⟩ | ⟨-, -, e⟩ := hb <;> rw [e] at h <;> cases h
  · exact hs.replied
  · exact hs.replied
  · exact hs.trans (setPhase_redoes _)

theorem awaitBodyStep_redoes {k : SetLevel} {s t : State} (h : awaitBodyStep s = .next t) : Redoes k s t := by
  have hr : Redoes k s (recv s.lenLatch s) := recv_redoes _
  obtain ⟨-, e⟩ | ⟨-, -, ⟨-, e⟩ | ⟨bs, -, -, ⟨-, e⟩ | ⟨-, e⟩⟩⟩ := awaitBodyStep_cases s <;>
    rw [e] at h <;> cases h
  · exact hr.trans beginCycle_redoes
  · exact (hr.trans (storeFb_redoes 1 bs)).replied
  · exact (hr.trans (storeFb_redoes 1 bs)).trans (setPhase_redoes _)

/-- The verifier's first call is the checksum of the buffer, which a twin need not share. -/
theorem verifyStep_redoes {k : SetLevel} {s t : State} (h : verifyStep s = .next t) :
    Redoes k (checkCrc s) t := by
  obtain ⟨-, e⟩ | ⟨-, ⟨-, e⟩ | ⟨-, e⟩⟩ := verifyStep_cases s <;> rw [e] at h <;> cases h
  · exact setPhase_redoes _
  · exact Redoes.refl.replied

theorem dispatchStep_redoes {k : SetLevel} {s t : State} (h : dispatchStep s = .next t) : Redoes k s t := by
  obtain ⟨-, e⟩ | ⟨-, -, ⟨-, e⟩ | ⟨-, -, e⟩ | ⟨-, -, e⟩⟩ := dispatchStep_cases s <;>
    rw [e] at h <;> cases h
  · exact beginCycle_redoes
  · exact Redoes.refl.replied
  · exact setPhase_redoes _

/-- A handler's calls, its option-byte calls being about the level its command asks for. -/
theorem exec_redoes {i : Instr} {s t : State} (hf : s.fetch = .instr i) (h : exec i s = .next t) :
    Redoes s.askedLevel s t := by
  cases i with
  | getVersion x => cases h; exact Redoes.refl.replied
  | getHelp x => cases h; exact Redoes.refl.replied
  | getChipId x => cases h; exact Redoes.refl.replied
  | getProtectionStatus x => cases h; exact ropRead_redoes.replied
  | jumpToAddress addr x =>
    cases h
    split
    · exact (send_redoes _).trans (xfer_redoes _)
    · exact Redoes.refl.replied
  | eraseFlash pidx pcnt x =>
    cases h
    split
    · exact (eraseBracket_redoes _).replied
    · exact Redoes.refl.replied
  | memoryWrite addr d x =>
    cases h
    split
    · exact (writeBracket_redoes addr d).replied
    · exact Redoes.refl.replied
  | enableRwProtect x => cases h; exact Redoes.refl.replied
  | memoryRead x => cases h; exact Redoes.refl.replied
  | getPageProtectionStatus x => cases h; exact Redoes.refl.replied
  | readOtp x => cases h; exact Redoes.refl.replied
  | disableRwProtect lvl x =>
    cases hk : requestedLevel lvl with
    | none =>
      rw [exec_disableRwProtect_of_none hk] at h
      cases h
      exact Redoes.refl.replied
    | some k =>
      rw [exec_disableRwProtect hk] at h
      cases h
      exact askedLevel_eq hf hk ▸ ropBracket_redoes.replied

/-- The calls of a step, done again from where it began, leave what the step leaves behind a reset. -/
theorem step_redone {s t : State} (h : step s = .next t) :
    SameBehindAReset t (redoAll s.askedLevel s.stepEvents s) := by
  have of_redoes (hr : Redoes s.askedLevel s t) : SameBehindAReset t (redoAll s.askedLevel s.stepEvents s) := by
    obtain ⟨evs, he, ht⟩ := hr
    rw [stepEvents_eq h he]
    exact (ht s (.refl s)).sameBehindAReset
  cases hp : s.phase with
  | awaitLen => exact of_redoes (awaitLenStep_redoes (step_awaitLen hp ▸ h))
  | awaitBody => exact of_redoes (awaitBodyStep_redoes (step_awaitBody hp ▸ h))
  | verify =>
    obtain ⟨evs, he, ht⟩ := verifyStep_redoes (k := s.askedLevel) (step_verify hp ▸ h)
    rw [checkCrc_events, List.append_assoc] at he
    rw [stepEvents_eq h he]
    exact (ht (checkCrc s) (.refl _)).sameBehindAReset
  | dispatch => exact of_redoes (dispatchStep_redoes (step_dispatch hp ▸ h))
  | exec =>
    obtain ⟨hn, -⟩ | ⟨-, i, hf, he⟩ := step_front_or_exec h
    · exact absurd hp hn
    · exact of_redoes (exec_redoes hf he)
  | handedOff =>
    rw [step_handedOff hp] at h
    cases h
    exact of_redoes .refl

/-! ### Power lost before the first call or after the last -/

/-- No step ends between an option-byte program and its reload (R70, R234). -/
theorem stepEvents_getLast_ne_obProg {s t : State} (h : step s = .next t) (enc : Nat) :
    s.stepEvents.getLast? ≠ some (.obProg enc .ok) := by
  obtain ⟨-, hf⟩ | ⟨-, i, -, he⟩ := step_front_or_exec h
  · intro hlast
    exact absurd (hf.added.stepEvents h _ (List.mem_of_getLast? hlast)) (by simp [Event.isHandlerCall])
  · obtain ⟨v, bs, hv, rfl⟩ | ⟨addr, x, -, -, rfl⟩ := exec_cases he
    · obtain ⟨evs, hev, -⟩ := hv.adds
      rw [stepEvents_of_replied h hev]
      simp
    · rw [stepEvents_eq (evs := [.tx (ackReply [addrValid]), .xfer (addr + 1)]) h (by simp)]
      simp

/-- Cut after its last call, a step has made all its calls. -/
theorem cutShort_after_last {s t : State} {n : Nat} (h : step s = .next t) (hn : s.stepEvents.length ≤ n)
    (inCall : Bool) : s.cutShort n inCall = redoAll s.askedLevel s.stepEvents s := by
  have hsettle := settleLevel_of_last (k := s.askedLevel)
    (s := redoAll s.askedLevel s.stepEvents s) (stepEvents_getLast_ne_obProg h)
  unfold State.cutShort
  rw [List.take_of_length_le hn, List.getElem?_eq_none hn]
  cases inCall <;> exact hsettle

/-- Settles O51: before its first call nothing is done again, and after its last all of it is (`step_redone`). -/
theorem powerLossBetweenStepsIsAReset : Obligations.PowerLossBetweenStepsIsAReset := by
  intro mode n inCall s t h
  refine ⟨rfl, fun hn => ?_⟩
  have hlen : s.stepEvents.length ≤ n := by
    obtain ⟨-, evs, he⟩ := configurationStaysAndEventsGrow s t h
    rw [stepEvents_eq h he]
    simpa [he] using hn
  rw [State.powerLoss, cutShort_after_last h hlen]
  exact (step_redone h).resetFrom mode

end Sys2Proof.Machine
end

section
/-! PROOFS. The family of 60_exceptions.md, third part: power lost inside MEMORY_WRITE (R63, R66, R214, R285). -/

namespace Sys2Proof.Machine

/-! ### Power lost after some calls, or inside the next one -/

/-- A loss of power changes no byte that the calls made have not, but those the call under way may write (R66,
R67). -/
theorem cutShort_read {s : State} {done rest : List Event} {ev : Event} {inCall : Bool} {a : Nat}
    (hcalls : s.stepEvents = done ++ ev :: rest) (h : inCall = true → ¬ ev.writes s.cfg a) :
    (s.cutShort done.length inCall).mem.read a = (redoAll s.askedLevel done s).mem.read a := by
  have hcfg : (redoAll s.askedLevel done s).cfg = s.cfg := (redoAll_frame (fun _ => id) s).cfg
  unfold State.cutShort
  rw [hcalls, List.take_left' rfl, List.getElem?_append_right (Nat.le_refl _), Nat.sub_self]
  cases inCall with
  | true => exact (cutOff_frame (List.mem_singleton_self ev) _).mem a (by simpa [hcfg] using h)
  | false =>
    simp only [settleLevel]
    split <;> rfl

/-! ### The calls of an unlocked MEMORY_WRITE -/

/-- A loop that is stopped stays stopped, so running on from the data's first part is running on the whole. -/
theorem programLoop_append (addr : W32) (d d' : List Byte) (s : State) :
    programLoop addr (d ++ d') s = programLoop addr d' (programLoop addr d s) := by
  induction d generalizing s with
  | nil => rfl
  | cons b d ih =>
    simp only [List.cons_append, programLoop]
    split
    · exact ih _
    · exact (programLoop_stop addr d' (Ans.eq_fail_of_ne_ok ‹_›)).symm

/-- The bracket's next call, from any point of its loop on, writes the next byte or none (R213, R215). -/
theorem flLock_programLoop_events {s : State} (c : Cfg) (addr : W32) (d : List Byte) (hw : s.w = .ok) :
    ∃ ev rest, (flLock (programLoop addr d s)).events = s.events ++ ev :: rest ∧
      ∀ a, ev.writes c a → d ≠ [] ∧ a = (addr.toNat + s.wi) % 2 ^ 32 := by
  cases d with
  | nil => exact ⟨_, [], flLock_events s, fun _ => False.elim⟩
  | cons b d =>
    obtain ⟨evs, he, -⟩ :=
      (programLoop_adds addr d (countWritten (flProg (addr + BitVec.ofNat 32 s.wi) b s))).trans (flLock_adds _)
    rw [countWritten_events, flProg_events, List.append_assoc] at he
    rw [programLoop, if_pos hw]
    refine ⟨_, evs, he, fun a ha => ⟨List.cons_ne_nil _ _, ?_⟩⟩
    simpa [Event.writes, BitVec.toNat_add] using ha

/-- The write bracket's state after its unlock and `j` program calls (R211). -/
def writtenSoFar (addr : W32) (d : List Byte) (j : Nat) (s : State) : State :=
  programLoop addr (d.take j) (beginLoop (flUnlock s))

section
variable {s : State} {addr : W32} {d : List Byte} {j : Nat}

/-- All that unlock and `j` program calls do when each of them answers `ok` (`programLoop_all_ok`). -/
theorem writtenSoFar_spec (hd : d.length ≤ 255) (hj : j ≤ d.length) (ha : ∀ k, k ≤ j → s.answerAt k = .ok) :
    (writtenSoFar addr d j s).w = .ok ∧ (writtenSoFar addr d j s).wi = j ∧
      (writtenSoFar addr d j s).events.length = s.events.length + (j + 1) ∧
      (∀ i, i < j → (writtenSoFar addr d j s).mem.read ((addr.toNat + i) % 2 ^ 32) = some (d.getD i 0)) ∧
      ∀ a, (∀ i, i < j → a ≠ (addr.toNat + i) % 2 ^ 32) →
        (writtenSoFar addr d j s).mem.read a = s.mem.read a := by
  have hlen : (d.take j).length = j := List.length_take_of_le hj
  obtain ⟨hw, hwi, -, -, hev, hin, hout⟩ := programLoop_all_ok addr (d.take j) (beginLoop (flUnlock s)) rfl
    (by simp; omega) (fun k hk => by simpa using ha (k + 1) (by omega))
  simp only [hlen, beginLoop_wi, Nat.zero_add] at hwi hev hin hout
  refine ⟨hw, hwi, ?_, fun i hi => (hin i hi).trans ?_, hout⟩
  · simp [writtenSoFar, hev]
  · simp [List.getElem?_take_of_lt hi]

/-- MEMORY_WRITE's calls, cut after its unlock and `j` program calls: those, done again, lead to the state after
them, and the next one writes byte `j` or none. -/
theorem memoryWrite_stepEvents {x : List Byte} (hp : s.phase = .exec) (hf : s.fetch = .instr (.memoryWrite addr d x))
    (hd : d.length ≤ 255) (hv : isValid s.cfg addr = true) (hj : j ≤ d.length)
    (ha : ∀ k, k ≤ j → s.answerAt k = .ok) :
    ∃ done ev rest, s.stepEvents = done ++ ev :: rest ∧ done.length = j + 1 ∧
      SameBehindAReset (writtenSoFar addr d j s) (redoAll s.askedLevel done s) ∧
      ∀ a, ev.writes s.cfg a → j < d.length ∧ a = (addr.toNat + j) % 2 ^ 32 := by
  obtain ⟨hw, hwi, hlen, -, -⟩ := writtenSoFar_spec (addr := addr) hd hj ha
  have hstep := (step_exec hp hf).trans (exec_memoryWrite hv d x)
  have hsplit : writeBracket addr d s = flLock (programLoop addr (d.drop j) (writtenSoFar addr d j s)) := by
    rw [writeBracket_unlocked (ha 0 (Nat.zero_le j)), writtenSoFar, ← programLoop_append, List.take_append_drop]
  have hredoes : Redoes s.askedLevel s (writtenSoFar addr d j s) :=
    (flUnlock_redoes.trans beginLoop_redoes).trans (programLoop_redoes addr _)
  obtain ⟨done, hdone, hredo⟩ := hredoes
  obtain ⟨ev, rest, hev, hwrites⟩ := flLock_programLoop_events s.cfg addr (d.drop j) hw
  have hcalls : (writeBracket addr d s).events = s.events ++ (done ++ ev :: rest) := by
    rw [hsplit, hev, hdone, List.append_assoc]
  refine ⟨done, ev, _, (stepEvents_of_replied hstep hcalls).trans (List.append_assoc ..), ?_,
    (hredo s (.refl s)).sameBehindAReset, fun a h => ?_⟩
  · simpa [hdone] using hlen
  · obtain ⟨hne, rfl⟩ := hwrites a h
    exact ⟨by simpa using hne, by rw [hwi]⟩

/-- MEMORY_WRITE changes no level, wherever it is cut (R68, R211). -/
theorem memoryWrite_powerLoss_rop {x : List Byte} (mode : BootMode) (n : Nat) (inCall : Bool)
    (hp : s.phase = .exec) (hf : s.fetch = .instr (.memoryWrite addr d x)) (hv : isValid s.cfg addr = true) :
    (s.powerLoss mode n inCall).rop = s.rop := by
  have hstep := (step_exec hp hf).trans (exec_memoryWrite hv d x)
  refine (cutShort_frame n inCall s).ropKept (AddsOnly.stepEvents ?_ hstep)
  exact (writeBracket_addsOnly addr d (fun _ => rfl) (fun _ _ _ => rfl) (fun _ => rfl)).replied rfl

end

/-- Settles O53: the calls made are unlock and `j` program calls (`memoryWrite_stepEvents`), whose bytes
`writtenSoFar_spec` gives; the call under way writes byte `j` at most, which is none of the `j` before it. -/
theorem powerLossInAWriteKeepsTheBytesWritten : Obligations.PowerLossInAWriteKeepsTheBytesWritten := by
  intro mode s addr d x j inCall hp hf hd hv hj ha
  obtain ⟨done, ev, rest, hcalls, hlen, hsame, hwrites⟩ := memoryWrite_stepEvents hp hf hd hv hj ha
  obtain ⟨-, -, -, hin, hout⟩ := writtenSoFar_spec (addr := addr) hd hj ha
  have hread (a : Nat) (hflash : inFlash s.cfg a) (hnext : inCall = true → ¬ ev.writes s.cfg a) :
      (s.powerLoss mode (j + 1) inCall).mem.read a = (writtenSoFar addr d j s).mem.read a := by
    rw [powerLoss_read mode _ inCall hflash, ← hlen, cutShort_read hcalls hnext, hsame.mem]
  refine ⟨memoryWrite_powerLoss_rop mode _ inCall hp hf hv, fun i hi hflash => ?_, fun a hflash hold hnext => ?_⟩
  · rw [hread _ hflash, hin i hi]
    intro _ hw
    obtain ⟨hlt, heq⟩ := hwrites _ hw
    omega
  · rw [hread a hflash, hout a hold]
    intro hcall hw
    obtain ⟨hlt, heq⟩ := hwrites a hw
    exact hnext hcall hlt heq

end Sys2Proof.Machine
end
